-- ==== Sys2Proof/Word.lean ====
section
/-! DEFINITION. The word types of the machine (spec/00_scope.md R10): registers and addresses are 32 bits. -/

namespace Sys2Proof

/-- A 32-bit register value or address (R9 XLEN). -/
abbrev Word := BitVec 32

/-- A halfword: a Thumb instruction or a 16-bit I/O register. -/
abbrev Half := BitVec 16

/-- A byte, the smallest unit the bus addresses. -/
abbrev Byte := BitVec 8

end Sys2Proof
end

