-- ==== Sys2Proof/Config.lean ====
section
/-! DEFINITION. What an implementation fixes: the parameters of spec/00_scope.md R9, held in State as data, and the
free values and OPEN parameters, opaque constants nothing can evaluate (notes/assumptions/1 to 6, 27, 35). -/

namespace Sys2Proof

/-- UNDEF_POLICY: what an undefined encoding does (30_encoding.md R214). -/
inductive UndefPolicy where
  | nop
  | trap
  deriving DecidableEq, Repr

/-- SWI_MODE: high-level emulation or the Software Interrupt exception (43_arm_branch_system.md R404). -/
inductive SwiMode where
  | hle
  | trap
  deriving DecidableEq, Repr

/-- Whether BIOS_IMAGE is the stub of 70_reset_and_hazards.md R852 or an image the host supplied. -/
inductive BiosKind where
  | stub
  | supplied
  deriving DecidableEq, Repr

/-- BOOT_MODE (70_reset_and_hazards.md R850). -/
inductive BootMode where
  | directBoot
  | fromFirmware
  deriving DecidableEq, Repr

/-- SAVE_TYPE (20_memory.md R116). -/
inductive SaveType where
  | none
  | batteryRam
  | flash512
  | flash1M
  | eeprom4K
  | eeprom64K
  deriving DecidableEq, Repr

/-- WINDOW_GARBAGE (64_ppu.md R754). -/
inductive WindowGarbage where
  | clampToEdge
  | wrap
  deriving DecidableEq, Repr

/-- How a value the spec calls OPEN or a draw is taken: any value, or the executable default the spec names for it. -/
inductive OpenChoice where
  | draw
  | executableDefault
  deriving DecidableEq, Repr

/-- CYCLE_COST: the tables of 20_memory.md R131 and 70_reset_and_hazards.md R880, or a cost function in their place
(92_eei_decisions.md D7; notes/assumptions/35). -/
inductive CycleCost where
  | table
  | replaced
  deriving DecidableEq, Repr

/-- FIFO_REQUEST: the occupancy model of 62_dma.md R718, or an external audio block that raises requests only at timer
overflows (notes/assumptions/27). -/
inductive FifoModel where
  | occupancy
  | external
  deriving DecidableEq, Repr

/-- One call made to the BackupStore that changes it (20_memory.md R116, R133): an 8-bit write to SRAM or flash at a
16-bit offset, a write of `bytes` bytes in the EEPROM window, or the host's LoadBackup. -/
inductive BackupCall where
  | write8 (offset : BitVec 16) (value : Byte)
  | eepromWrite (bytes : Nat) (value : Word)
  | load (image : List Byte)
  deriving DecidableEq, Repr

/-- One bus access of a BIOS service whose effect is OPEN: 1, 2 or 4 bytes, a write of a value or a read that is only
charged (47_swi_hle.md R550, R552; notes/assumptions/5). -/
structure OpenAccess where
  write : Bool
  size  : Fin 3
  addr  : Word
  value : Word
  deriving DecidableEq, Repr

/-- The parameters of 00_scope.md R9 that a model takes as arguments. They stand in State and no step changes them. -/
structure Params where
  undefPolicy   : UndefPolicy
  swiMode       : SwiMode
  biosKind      : BiosKind
  bootMode      : BootMode
  /-- ROM_MIRROR, the mirror stride of ROM inside its window. -/
  romMirror     : Nat
  saveType      : SaveType
  /-- MEM_INIT: the RAM bytes that are not zero at reset, by canonical address. -/
  memInit       : List Host.Cell
  /-- HALT_QUANTUM: cycles advanced per halted step. -/
  haltQuantum   : Nat
  windowGarbage : WindowGarbage
  /-- MUL_CARRY: a draw per flag, or unchanged (41_arm_multiply.md R347). -/
  mulCarry      : OpenChoice
  /-- BIOS_SIN_TABLE and BIOS_ARCTAN: OPEN functions, or their executable defaults (47_swi_hle.md R532, R537). -/
  biosTables    : OpenChoice
  /-- CYCLE_COST. -/
  cycleCost     : CycleCost
  /-- FIFO_REQUEST. -/
  fifoModel     : FifoModel
  /-- BIOS_SOUND and BIOS_MULTIBOOT: OPEN effects, or their executable defaults (47_swi_hle.md R550, R552). -/
  biosSound     : OpenChoice
  biosMultiBoot : OpenChoice
  /-- The word an instruction fetched from an overwritten prefetched slot is: either, or the new one
  (70_reset_and_hazards.md R870). -/
  selfModify    : OpenChoice
  deriving DecidableEq, Repr

/-- The defaults of R9. SAVE_TYPE has none there: None is a DESIGN CHOICE (notes/assumptions/2). The OPEN choices are
draws, so that no statement rests on an executable default. -/
def Params.default : Params where
  undefPolicy := .nop
  swiMode := .hle
  biosKind := .stub
  bootMode := .directBoot
  romMirror := 0x02000000
  saveType := .none
  memInit := []
  haltQuantum := 1
  windowGarbage := .clampToEdge
  mulCarry := .draw
  biosTables := .draw
  cycleCost := .table
  fifoModel := .occupancy
  biosSound := .draw
  biosMultiBoot := .draw
  selfModify := .draw

/-- Free bits, one per draw: nothing constrains them (notes/assumptions/1). -/
opaque Config.freeBit : Nat → Bool

/-- Free words, one per draw (notes/assumptions/1). -/
opaque Config.freeWord : Nat → Word

/-- BIOS_SIN_TABLE, OPEN (47_swi_hle.md R537). -/
opaque Config.biosSin : BitVec 8 → Half

/-- BIOS_ARCTAN for ArcTan, OPEN but for its range -0x4000 to 0x4000, coded as 0 to 0x8000 (47_swi_hle.md R532). -/
opaque Config.biosArcTan : Word → Fin 0x8001

/-- BIOS_ARCTAN for ArcTan2 away from the fixed points, OPEN (47_swi_hle.md R533). -/
opaque Config.biosArcTan2 : Half → Half → Half

/-- BIOS_MIDIKEY2FREQ of the wave word, the key and the fine adjustment, OPEN (47_swi_hle.md R551). -/
opaque Config.biosMidiKey2Freq : Word → Word → Word → Word

/-- The bus accesses of a service whose effect is OPEN, in order, one list per draw (47_swi_hle.md R550, R552;
notes/assumptions/5). -/
opaque Config.openAccesses : Nat → List OpenAccess

/-- The registers r0 to r14 that a service whose effect is OPEN writes, one list per draw (notes/assumptions/5). -/
opaque Config.openRegs : Nat → List (Fin 15 × Word)

/-- The cycles of an instruction under a replaced CYCLE_COST, one per draw (92_eei_decisions.md D7;
notes/assumptions/35). -/
opaque Config.instrCycles : Nat → Nat

/-- The cycles of one bus access of a DMA transfer under a replaced CYCLE_COST: by its bytes, its address, whether it is
sequential, and WAITCNT (notes/assumptions/35). -/
opaque Config.accessCycles : Nat → Word → Bool → Half → Nat

/-- The setup cycles of a DMA transfer under a replaced CYCLE_COST (notes/assumptions/35). -/
opaque Config.dmaSetupCycles : Nat

/-- The cycles of an IRQ entry under a replaced CYCLE_COST (notes/assumptions/35). -/
opaque Config.irqCycles : Nat

/-- Whether an external audio block raises FIFO_REQUEST, one answer per draw (00_scope.md R9; notes/assumptions/27). -/
opaque Config.fifoRaises : Nat → Bool

/-- The buffer the BackupStore hands the host after the calls made (20_memory.md R133; notes/assumptions/6). -/
opaque Config.backupSnapshot : SaveType → List BackupCall → List Byte

/-- What the BackupStore answers to `backup_read8`, a function of the calls made so far: its protocol is out of scope
(00_scope.md R7; notes/assumptions/6). -/
opaque Config.backupRead8 : SaveType → List BackupCall → BitVec 16 → Byte

/-- What the BackupStore answers to `eeprom_read16` (notes/assumptions/6). -/
opaque Config.eepromRead16 : SaveType → List BackupCall → Half

/-- SNAPSHOT_RING less one, OPEN: the capacity is a positive integer (60_exceptions.md R685). -/
opaque Config.snapshotRingLessOne : Nat

/-- WATCHDOG_CYCLES, OPEN (60_exceptions.md R687). -/
opaque Config.watchdogCycles : Nat

/-- WATCHDOG_THRESHOLD, OPEN (60_exceptions.md R687). -/
opaque Config.watchdogThreshold : Nat

/-- The bound on DMA loops that need not end: one is given up as never ending after 2 ^ loopBound rounds, more than the
devices have states (notes/assumptions/10). -/
def Config.loopBound : Nat := 2 ^ 40

end Sys2Proof
end

