-- ==== Sys2Proof/Syntax.lean ====
section
/-! DEFINITION. Instructions as syntax: one constructor of `Instr` per row of spec/opcode_table.json, in the table's
order. Fields the spec calls SBZ, SBO or ignored are not operands (30_encoding.md R215) and do not stand here. -/

namespace Sys2Proof

/-- A condition field (30_encoding.md R204). -/
inductive Cond where
  | eq | ne | cs | cc | mi | pl | vs | vc | hi | ls | ge | lt | gt | le | al | nv
  deriving DecidableEq, Repr

/-- A shift type (30_encoding.md R201, bits 6:5). -/
inductive ShiftType where
  | lsl | lsr | asr | ror
  deriving DecidableEq, Repr

/-- A register name r0 to r15. -/
abbrev Reg := Fin 16

/-- A Thumb low register name r0 to r7. -/
abbrev LowReg := Fin 8

/-- A mode 2 offset: a 12-bit immediate, or a register shifted by an immediate amount (30_encoding.md R208). -/
inductive Offset2 where
  | imm (off : BitVec 12)
  | reg (rm : Reg) (sh : ShiftType) (amt : BitVec 5)
  deriving DecidableEq, Repr

/-- The address part of a word or byte transfer: U, Rn and the offset (42_arm_loadstore.md R360). -/
structure Mode2 where
  up  : Bool
  rn  : Reg
  off : Offset2
  deriving DecidableEq, Repr

/-- A mode 3 offset: an 8-bit immediate or a register (30_encoding.md R208). -/
inductive Offset3 where
  | imm (off : BitVec 8)
  | reg (rm : Reg)
  deriving DecidableEq, Repr

/-- The address part of a halfword or signed transfer: P, U, W, Rn and the offset (42_arm_loadstore.md R370). -/
structure Mode3 where
  pre   : Bool
  up    : Bool
  wback : Bool
  rn    : Reg
  off   : Offset3
  deriving DecidableEq, Repr

/-- The instructions. ARM constructors begin with the condition; the `bits` of an undefined encoding are its bits
27:0 (ARM) or its low bits (Thumb). -/
inductive Instr where
  -- ARM branch and exchange
  | armBx (cond : Cond) (rm : Reg)
  -- ARM multiply and multiply long (41_arm_multiply.md)
  | armMul (cond : Cond) (s : Bool) (rd : Reg) (rs : Reg) (rm : Reg)
  | armMla (cond : Cond) (s : Bool) (rd : Reg) (rn : Reg) (rs : Reg) (rm : Reg)
  | armUmull (cond : Cond) (s : Bool) (rdHi : Reg) (rdLo : Reg) (rs : Reg) (rm : Reg)
  | armUmlal (cond : Cond) (s : Bool) (rdHi : Reg) (rdLo : Reg) (rs : Reg) (rm : Reg)
  | armSmull (cond : Cond) (s : Bool) (rdHi : Reg) (rdLo : Reg) (rs : Reg) (rm : Reg)
  | armSmlal (cond : Cond) (s : Bool) (rdHi : Reg) (rdLo : Reg) (rs : Reg) (rm : Reg)
  -- ARM swap, halfword and signed transfers (42_arm_loadstore.md)
  | armSwp (cond : Cond) (rn : Reg) (rd : Reg) (rm : Reg)
  | armSwpb (cond : Cond) (rn : Reg) (rd : Reg) (rm : Reg)
  | armStrh (cond : Cond) (m : Mode3) (rd : Reg)
  | armLdrh (cond : Cond) (m : Mode3) (rd : Reg)
  | armLdrsb (cond : Cond) (m : Mode3) (rd : Reg)
  | armLdrsh (cond : Cond) (m : Mode3) (rd : Reg)
  -- ARM undefined extension spaces (30_encoding.md R212)
  | armUndefSignedStore (cond : Cond) (bits : BitVec 28)
  | armUndefMulSpace (cond : Cond) (bits : BitVec 28)
  -- ARM PSR transfer (40_arm_dataproc.md R319, R320)
  | armMrs (cond : Cond) (r : Bool) (rd : Reg)
  | armMsrReg (cond : Cond) (r : Bool) (mask : BitVec 4) (rm : Reg)
  | armMsrImm (cond : Cond) (r : Bool) (mask : BitVec 4) (rot : BitVec 4) (imm : BitVec 8)
  -- ARM undefined control spaces (R212)
  | armUndefControl (cond : Cond) (bits : BitVec 28)
  | armUndefTestImm (cond : Cond) (bits : BitVec 28)
  -- ARM data processing: immediate, immediate-shift and register-shift forms (40_arm_dataproc.md)
  | armAndImm (cond : Cond) (s : Bool) (rn : Reg) (rd : Reg) (rot : BitVec 4) (imm : BitVec 8)
  | armAndShift (cond : Cond) (s : Bool) (rn : Reg) (rd : Reg) (amt : BitVec 5) (sh : ShiftType) (rm : Reg)
  | armAndReg (cond : Cond) (s : Bool) (rn : Reg) (rd : Reg) (rs : Reg) (sh : ShiftType) (rm : Reg)
  | armEorImm (cond : Cond) (s : Bool) (rn : Reg) (rd : Reg) (rot : BitVec 4) (imm : BitVec 8)
  | armEorShift (cond : Cond) (s : Bool) (rn : Reg) (rd : Reg) (amt : BitVec 5) (sh : ShiftType) (rm : Reg)
  | armEorReg (cond : Cond) (s : Bool) (rn : Reg) (rd : Reg) (rs : Reg) (sh : ShiftType) (rm : Reg)
  | armSubImm (cond : Cond) (s : Bool) (rn : Reg) (rd : Reg) (rot : BitVec 4) (imm : BitVec 8)
  | armSubShift (cond : Cond) (s : Bool) (rn : Reg) (rd : Reg) (amt : BitVec 5) (sh : ShiftType) (rm : Reg)
  | armSubReg (cond : Cond) (s : Bool) (rn : Reg) (rd : Reg) (rs : Reg) (sh : ShiftType) (rm : Reg)
  | armRsbImm (cond : Cond) (s : Bool) (rn : Reg) (rd : Reg) (rot : BitVec 4) (imm : BitVec 8)
  | armRsbShift (cond : Cond) (s : Bool) (rn : Reg) (rd : Reg) (amt : BitVec 5) (sh : ShiftType) (rm : Reg)
  | armRsbReg (cond : Cond) (s : Bool) (rn : Reg) (rd : Reg) (rs : Reg) (sh : ShiftType) (rm : Reg)
  | armAddImm (cond : Cond) (s : Bool) (rn : Reg) (rd : Reg) (rot : BitVec 4) (imm : BitVec 8)
  | armAddShift (cond : Cond) (s : Bool) (rn : Reg) (rd : Reg) (amt : BitVec 5) (sh : ShiftType) (rm : Reg)
  | armAddReg (cond : Cond) (s : Bool) (rn : Reg) (rd : Reg) (rs : Reg) (sh : ShiftType) (rm : Reg)
  | armAdcImm (cond : Cond) (s : Bool) (rn : Reg) (rd : Reg) (rot : BitVec 4) (imm : BitVec 8)
  | armAdcShift (cond : Cond) (s : Bool) (rn : Reg) (rd : Reg) (amt : BitVec 5) (sh : ShiftType) (rm : Reg)
  | armAdcReg (cond : Cond) (s : Bool) (rn : Reg) (rd : Reg) (rs : Reg) (sh : ShiftType) (rm : Reg)
  | armSbcImm (cond : Cond) (s : Bool) (rn : Reg) (rd : Reg) (rot : BitVec 4) (imm : BitVec 8)
  | armSbcShift (cond : Cond) (s : Bool) (rn : Reg) (rd : Reg) (amt : BitVec 5) (sh : ShiftType) (rm : Reg)
  | armSbcReg (cond : Cond) (s : Bool) (rn : Reg) (rd : Reg) (rs : Reg) (sh : ShiftType) (rm : Reg)
  | armRscImm (cond : Cond) (s : Bool) (rn : Reg) (rd : Reg) (rot : BitVec 4) (imm : BitVec 8)
  | armRscShift (cond : Cond) (s : Bool) (rn : Reg) (rd : Reg) (amt : BitVec 5) (sh : ShiftType) (rm : Reg)
  | armRscReg (cond : Cond) (s : Bool) (rn : Reg) (rd : Reg) (rs : Reg) (sh : ShiftType) (rm : Reg)
  | armTstImm (cond : Cond) (rn : Reg) (rot : BitVec 4) (imm : BitVec 8)
  | armTstShift (cond : Cond) (rn : Reg) (amt : BitVec 5) (sh : ShiftType) (rm : Reg)
  | armTstReg (cond : Cond) (rn : Reg) (rs : Reg) (sh : ShiftType) (rm : Reg)
  | armTeqImm (cond : Cond) (rn : Reg) (rot : BitVec 4) (imm : BitVec 8)
  | armTeqShift (cond : Cond) (rn : Reg) (amt : BitVec 5) (sh : ShiftType) (rm : Reg)
  | armTeqReg (cond : Cond) (rn : Reg) (rs : Reg) (sh : ShiftType) (rm : Reg)
  | armCmpImm (cond : Cond) (rn : Reg) (rot : BitVec 4) (imm : BitVec 8)
  | armCmpShift (cond : Cond) (rn : Reg) (amt : BitVec 5) (sh : ShiftType) (rm : Reg)
  | armCmpReg (cond : Cond) (rn : Reg) (rs : Reg) (sh : ShiftType) (rm : Reg)
  | armCmnImm (cond : Cond) (rn : Reg) (rot : BitVec 4) (imm : BitVec 8)
  | armCmnShift (cond : Cond) (rn : Reg) (amt : BitVec 5) (sh : ShiftType) (rm : Reg)
  | armCmnReg (cond : Cond) (rn : Reg) (rs : Reg) (sh : ShiftType) (rm : Reg)
  | armOrrImm (cond : Cond) (s : Bool) (rn : Reg) (rd : Reg) (rot : BitVec 4) (imm : BitVec 8)
  | armOrrShift (cond : Cond) (s : Bool) (rn : Reg) (rd : Reg) (amt : BitVec 5) (sh : ShiftType) (rm : Reg)
  | armOrrReg (cond : Cond) (s : Bool) (rn : Reg) (rd : Reg) (rs : Reg) (sh : ShiftType) (rm : Reg)
  | armMovImm (cond : Cond) (s : Bool) (rd : Reg) (rot : BitVec 4) (imm : BitVec 8)
  | armMovShift (cond : Cond) (s : Bool) (rd : Reg) (amt : BitVec 5) (sh : ShiftType) (rm : Reg)
  | armMovReg (cond : Cond) (s : Bool) (rd : Reg) (rs : Reg) (sh : ShiftType) (rm : Reg)
  | armBicImm (cond : Cond) (s : Bool) (rn : Reg) (rd : Reg) (rot : BitVec 4) (imm : BitVec 8)
  | armBicShift (cond : Cond) (s : Bool) (rn : Reg) (rd : Reg) (amt : BitVec 5) (sh : ShiftType) (rm : Reg)
  | armBicReg (cond : Cond) (s : Bool) (rn : Reg) (rd : Reg) (rs : Reg) (sh : ShiftType) (rm : Reg)
  | armMvnImm (cond : Cond) (s : Bool) (rd : Reg) (rot : BitVec 4) (imm : BitVec 8)
  | armMvnShift (cond : Cond) (s : Bool) (rd : Reg) (amt : BitVec 5) (sh : ShiftType) (rm : Reg)
  | armMvnReg (cond : Cond) (s : Bool) (rd : Reg) (rs : Reg) (sh : ShiftType) (rm : Reg)
  -- ARM undefined media space (R212)
  | armUndefMedia (cond : Cond) (bits : BitVec 28)
  -- ARM word and byte transfers (42_arm_loadstore.md)
  | armStrPre (cond : Cond) (w : Bool) (m : Mode2) (rd : Reg)
  | armStrPost (cond : Cond) (m : Mode2) (rd : Reg)
  | armLdrPre (cond : Cond) (w : Bool) (m : Mode2) (rd : Reg)
  | armLdrPost (cond : Cond) (m : Mode2) (rd : Reg)
  | armStrbPre (cond : Cond) (w : Bool) (m : Mode2) (rd : Reg)
  | armStrbPost (cond : Cond) (m : Mode2) (rd : Reg)
  | armLdrbPre (cond : Cond) (w : Bool) (m : Mode2) (rd : Reg)
  | armLdrbPost (cond : Cond) (m : Mode2) (rd : Reg)
  | armStrt (cond : Cond) (m : Mode2) (rd : Reg)
  | armLdrt (cond : Cond) (m : Mode2) (rd : Reg)
  | armStrbt (cond : Cond) (m : Mode2) (rd : Reg)
  | armLdrbt (cond : Cond) (m : Mode2) (rd : Reg)
  -- ARM block transfers, branches, coprocessor space, SWI
  | armStm (cond : Cond) (p : Bool) (u : Bool) (s : Bool) (w : Bool) (rn : Reg) (list : BitVec 16)
  | armLdm (cond : Cond) (p : Bool) (u : Bool) (s : Bool) (w : Bool) (rn : Reg) (list : BitVec 16)
  | armB (cond : Cond) (off : BitVec 24)
  | armBl (cond : Cond) (off : BitVec 24)
  | armStc (cond : Cond) (p : Bool) (u : Bool) (n : Bool) (w : Bool) (rn : Reg) (crd : BitVec 4) (cp : BitVec 4) (off : BitVec 8)
  | armLdc (cond : Cond) (p : Bool) (u : Bool) (n : Bool) (w : Bool) (rn : Reg) (crd : BitVec 4) (cp : BitVec 4) (off : BitVec 8)
  | armCdp (cond : Cond) (opc1 : BitVec 4) (crn : BitVec 4) (crd : BitVec 4) (cp : BitVec 4) (opc2 : BitVec 3) (crm : BitVec 4)
  | armMcr (cond : Cond) (opc1 : BitVec 3) (crn : BitVec 4) (rd : Reg) (cp : BitVec 4) (opc2 : BitVec 3) (crm : BitVec 4)
  | armMrc (cond : Cond) (opc1 : BitVec 3) (crn : BitVec 4) (rd : Reg) (cp : BitVec 4) (opc2 : BitVec 3) (crm : BitVec 4)
  | armSwi (cond : Cond) (comment : BitVec 24)
  -- Thumb formats 1 to 3 (44_thumb_alu.md)
  | thumbLslImm (off : BitVec 5) (rs : LowReg) (rd : LowReg)
  | thumbLsrImm (off : BitVec 5) (rs : LowReg) (rd : LowReg)
  | thumbAsrImm (off : BitVec 5) (rs : LowReg) (rd : LowReg)
  | thumbAddReg (rn : LowReg) (rs : LowReg) (rd : LowReg)
  | thumbSubReg (rn : LowReg) (rs : LowReg) (rd : LowReg)
  | thumbAddImm3 (imm : BitVec 3) (rs : LowReg) (rd : LowReg)
  | thumbSubImm3 (imm : BitVec 3) (rs : LowReg) (rd : LowReg)
  | thumbMovImm (rd : LowReg) (imm : BitVec 8)
  | thumbCmpImm (rd : LowReg) (imm : BitVec 8)
  | thumbAddImm8 (rd : LowReg) (imm : BitVec 8)
  | thumbSubImm8 (rd : LowReg) (imm : BitVec 8)
  -- Thumb format 4
  | thumbAnd (rs : LowReg) (rd : LowReg)
  | thumbEor (rs : LowReg) (rd : LowReg)
  | thumbLslReg (rs : LowReg) (rd : LowReg)
  | thumbLsrReg (rs : LowReg) (rd : LowReg)
  | thumbAsrReg (rs : LowReg) (rd : LowReg)
  | thumbAdc (rs : LowReg) (rd : LowReg)
  | thumbSbc (rs : LowReg) (rd : LowReg)
  | thumbRor (rs : LowReg) (rd : LowReg)
  | thumbTst (rs : LowReg) (rd : LowReg)
  | thumbNeg (rs : LowReg) (rd : LowReg)
  | thumbCmp (rs : LowReg) (rd : LowReg)
  | thumbCmn (rs : LowReg) (rd : LowReg)
  | thumbOrr (rs : LowReg) (rd : LowReg)
  | thumbMul (rs : LowReg) (rd : LowReg)
  | thumbBic (rs : LowReg) (rd : LowReg)
  | thumbMvn (rs : LowReg) (rd : LowReg)
  -- Thumb format 5
  | thumbAddHi (rs : Reg) (rd : Reg)
  | thumbCmpHi (rs : Reg) (rd : Reg)
  | thumbMovHi (rs : Reg) (rd : Reg)
  | thumbBx (rs : Reg)
  -- Thumb formats 6 to 11 (45_thumb_loadstore.md)
  | thumbLdrPc (rd : LowReg) (word : BitVec 8)
  | thumbStrReg (ro : LowReg) (rb : LowReg) (rd : LowReg)
  | thumbStrbReg (ro : LowReg) (rb : LowReg) (rd : LowReg)
  | thumbLdrReg (ro : LowReg) (rb : LowReg) (rd : LowReg)
  | thumbLdrbReg (ro : LowReg) (rb : LowReg) (rd : LowReg)
  | thumbStrhReg (ro : LowReg) (rb : LowReg) (rd : LowReg)
  | thumbLdsbReg (ro : LowReg) (rb : LowReg) (rd : LowReg)
  | thumbLdrhReg (ro : LowReg) (rb : LowReg) (rd : LowReg)
  | thumbLdshReg (ro : LowReg) (rb : LowReg) (rd : LowReg)
  | thumbStrImm (off : BitVec 5) (rb : LowReg) (rd : LowReg)
  | thumbLdrImm (off : BitVec 5) (rb : LowReg) (rd : LowReg)
  | thumbStrbImm (off : BitVec 5) (rb : LowReg) (rd : LowReg)
  | thumbLdrbImm (off : BitVec 5) (rb : LowReg) (rd : LowReg)
  | thumbStrhImm (off : BitVec 5) (rb : LowReg) (rd : LowReg)
  | thumbLdrhImm (off : BitVec 5) (rb : LowReg) (rd : LowReg)
  | thumbStrSp (rd : LowReg) (word : BitVec 8)
  | thumbLdrSp (rd : LowReg) (word : BitVec 8)
  -- Thumb formats 12 to 15
  | thumbAddPc (rd : LowReg) (word : BitVec 8)
  | thumbAddSp (rd : LowReg) (word : BitVec 8)
  | thumbIncSp (word : BitVec 7)
  | thumbDecSp (word : BitVec 7)
  | thumbPush (r : Bool) (list : BitVec 8)
  | thumbPop (r : Bool) (list : BitVec 8)
  | thumbUndef1011 (bits : BitVec 12)
  | thumbStmia (rb : LowReg) (list : BitVec 8)
  | thumbLdmia (rb : LowReg) (list : BitVec 8)
  -- Thumb formats 16 to 19 and undefined spaces (46_thumb_branch.md)
  | thumbSwi (value : BitVec 8)
  | thumbUndefCond (bits : BitVec 8)
  | thumbBcond (c : Cond) (off : BitVec 8)
  | thumbB (off : BitVec 11)
  | thumbUndefBlx (bits : BitVec 11)
  | thumbBlPrefix (off : BitVec 11)
  | thumbBlSuffix (off : BitVec 11)
  deriving DecidableEq, Repr

end Sys2Proof
end

