-- ==== Sys2Proof/Machine/State.lean ====
section
/-! DEFINITION. The state of the machine as plain data, the reasons it can stop, and its state right after reset
(spec/10_state.md, 20_memory.md R103, 60_exceptions.md, 62_dma.md R700, 64_ppu.md R740, 70_reset_and_hazards.md R850). -/

namespace Sys2Proof.Machine

/-- A program status register: the fields of 10_state.md R37. Bits 27:8 do not exist. -/
structure Psr where
  n : Bool
  z : Bool
  c : Bool
  v : Bool
  i : Bool
  f : Bool
  t : Bool
  m : BitVec 5
  deriving DecidableEq, Repr

/-- The kinds of halt (10_state.md R44). -/
inductive HaltKind where
  | halt
  | stop
  deriving DecidableEq, Repr

/-- The interpreter's run state (10_state.md R44). A pause records the halt it interrupted (60_exceptions.md R684). -/
inductive RunState where
  | running
  | halted (k : HaltKind)
  | paused (interrupted : Option HaltKind)
  deriving DecidableEq, Repr

/-- A byte-addressed memory: the listed bytes, by canonical address, in rising order. -/
abbrev Memory := List Host.Cell

/-- One pixel in BGR555 (64_ppu.md R743). -/
abbrev Pixel := Half

/-- A frame: 160 rows of 240 pixels (64_ppu.md R743). -/
abbrev Frame := List (List Pixel)

/-- A timer channel (60_exceptions.md R650 to R652): `ctl` is TMnCNT_H. -/
structure Timer where
  reload  : Half
  counter : Half
  ctl     : Half
  phase   : Nat
  deriving DecidableEq, Repr

/-- A DMA channel (62_dma.md R700): the guest's registers, the working registers, and whether a trigger waits to be
served (R704, R706, R712). -/
structure DmaChannel where
  sad     : Word
  dad     : Word
  cntL    : Half
  cntH    : Half
  src     : Word
  dst     : Word
  count   : BitVec 17
  pending : Bool
  deriving DecidableEq, Repr

/-- The serial storage registers (20_memory.md R120). -/
structure Serial where
  siomulti : Vector Half 4
  siocnt   : Half
  siodata8 : Half
  rcnt     : Half
  joycnt   : Half
  joyRecv  : Word
  joyTrans : Word
  joystat  : Half
  deriving DecidableEq, Repr

/-- The pixel pipeline (64_ppu.md R740, R745 to R757). The vectors of two are indexed by n - 2 for BG n = 2, 3, and by
the window number for the window bounds. -/
structure Ppu where
  line      : Nat
  dot       : Nat
  dispcnt   : Half
  greenswap : Half
  dispstat  : Half
  bgcnt     : Vector Half 4
  bghofs    : Vector Half 4
  bgvofs    : Vector Half 4
  bgpa      : Vector Half 2
  bgpb      : Vector Half 2
  bgpc      : Vector Half 2
  bgpd      : Vector Half 2
  bgx       : Vector (BitVec 28) 2
  bgy       : Vector (BitVec 28) 2
  bgxInt    : Vector (BitVec 28) 2
  bgyInt    : Vector (BitVec 28) 2
  winh      : Vector Half 2
  winv      : Vector Half 2
  winin     : Half
  winout    : Half
  mosaic    : Half
  bldcnt    : Half
  bldalpha  : Half
  bldy      : Half
  back      : Frame
  front     : Frame
  objwin    : List Bool
  deriving DecidableEq, Repr

/-- Everything the bus, the DMA engine, the timers, the interrupt controller and the pixel pipeline hold, with the
run state (a HALTCNT write changes it) and the parameters. -/
structure Devices where
  params    : Params
  mem       : Memory
  /-- ROM_SIZE, 0 while no cartridge is loaded (20_memory.md R133, 70_reset_and_hazards.md R854). -/
  romSize   : Nat
  /-- The calls made to the BackupStore, newest first (20_memory.md R116, R133). -/
  backup    : List BackupCall
  run       : RunState
  ie        : Half
  iflag     : Half
  ime       : Half
  timers    : Vector Timer 4
  dma       : Vector DmaChannel 4
  dmaLatch  : Word
  /-- Occupancies of FIFO A and FIFO B, 0 to 32 bytes (62_dma.md R718). -/
  fifoA     : Nat
  fifoB     : Nat
  /-- The model's own: how many answers of an external audio block have been drawn (notes/assumptions/27). -/
  fifoDraws : Nat
  /-- The model's own: which halfwords of I/O and of the backup window the stores of this step wrote, each once
  (notes/assumptions/9). -/
  portStored  : List Nat
  /-- The sound storage at I/O offsets 0x060 to 0x09F, by halfword (20_memory.md R120). -/
  sound     : Vector Half 32
  serial    : Serial
  keyinput  : Half
  keycnt    : Half
  waitcnt   : Half
  postflg   : Byte
  memctl    : Word
  ppu       : Ppu
  deriving DecidableEq, Repr

/-- What a step-back snapshot holds (60_exceptions.md R685). -/
structure Snapshot where
  regs         : Vector Word 30
  pc           : Word
  cpsr         : Psr
  spsrFiq      : Psr
  spsrIrq      : Psr
  spsrSvc      : Psr
  spsrAbt      : Psr
  spsrUnd      : Psr
  run          : RunState
  intrwaitMask : Half
  deriving DecidableEq, Repr

/-- The host's debug state (60_exceptions.md R682 to R687): it never changes what the guest sees when unused. -/
structure Debug where
  breakpoints     : List Word
  bpSkip          : Bool
  singleStep      : Bool
  /-- The step-back ring, newest first. -/
  ring            : List Snapshot
  watchdogLast    : Option Word
  watchdogEqual   : Nat
  /-- Reports emitted to the host's diagnostic channel. -/
  watchdogReports : Nat
  deriving DecidableEq, Repr

/-- A prefetched instruction slot that a store changed after the prefetch: its address and the word prefetched
(70_reset_and_hazards.md R870). -/
structure StaleSlot where
  addr : Word
  old  : Word
  deriving DecidableEq, Repr

/-- The state. `regs` holds the 30 physical registers of 10_state.md R32: 0-14 are r0-r14 of User and System, 15-21
r8-r14 of FIQ, then r13 and r14 of IRQ (22), Supervisor (24), Abort (26) and Undefined (28). -/
structure State where
  regs          : Vector Word 30
  /-- The address of the instruction being executed, or of the next one between steps (R34). -/
  pc            : Word
  cpsr          : Psr
  spsrFiq       : Psr
  spsrIrq       : Psr
  spsrSvc       : Psr
  spsrAbt       : Psr
  spsrUnd       : Psr
  prefetchLatch : Word
  biosLatch     : Word
  intrwaitMask  : Half
  cycleCount    : BitVec 64
  stale         : List StaleSlot
  dbg         : Debug
  dev           : Devices
  /-- The model's own: what the last Step() returned, and the running sum inside a step (notes/assumptions/22). -/
  stepCycles    : Nat
  /-- The model's own: how many free values have been drawn (notes/assumptions/1). -/
  freeCount     : Nat
  deriving DecidableEq, Repr

/-- Why the machine stops with no next state where the spec's loop of DMA transfers goes on for ever. Raised by the step,
never by an instruction's meaning; safe (notes/assumptions/10). -/
inductive Fault where
  /-- Raised by the device advance: its DMA transfers add cycles for ever, so that Step() never returns (R857). Safe. -/
  | deviceAdvanceNeverEnds
  /-- Raised when DMA transfers enable one another for ever, so that Step() never returns (62_dma.md R706, R712). Safe. -/
  | dmaChainNeverEnds
  deriving DecidableEq, Repr

/-- Why an instruction is refused. -/
inductive Refusal where
  /-- Raised by an arm of exec that has no meaning yet. Safe. -/
  | notModelled (mnemonic : String)
  /-- Raised by MSR, a PSR restore and LDM with a PSR restore: the new mode number is not a mode, which the spec says
  the model refuses (10_state.md R42). Safe. -/
  | invalidMode
  /-- Raised by SWI and undefined encodings under a Trap policy with the stub BIOS, which the spec says the model
  refuses (60_exceptions.md R605). Safe. -/
  | trapWithStubBios
  /-- Raised by HardReset with BOOT_MODE = FromFirmware and the stub BIOS, which the spec says is refused
  (70_reset_and_hazards.md R850). Safe. -/
  | firmwareBootWithStubBios
  deriving DecidableEq, Repr

/-- The status register from its reset word: mode `m`, everything else 0. -/
def Psr.ofMode (m : BitVec 5) : Psr :=
  { n := false, z := false, c := false, v := false, i := false, f := false, t := false, m := m }

/-- An all-zero frame. -/
def Frame.blank : Frame := List.replicate 160 (List.replicate 240 0)

/-- The pixel pipeline after reset (64_ppu.md R740, 10_state.md R46). -/
def Ppu.reset : Ppu where
  line := 0
  dot := 0
  dispcnt := 0x0080
  greenswap := 0
  dispstat := 0
  bgcnt := Vector.replicate 4 0
  bghofs := Vector.replicate 4 0
  bgvofs := Vector.replicate 4 0
  bgpa := Vector.replicate 2 0x0100
  bgpb := Vector.replicate 2 0
  bgpc := Vector.replicate 2 0
  bgpd := Vector.replicate 2 0x0100
  bgx := Vector.replicate 2 0
  bgy := Vector.replicate 2 0
  bgxInt := Vector.replicate 2 0
  bgyInt := Vector.replicate 2 0
  winh := Vector.replicate 2 0
  winv := Vector.replicate 2 0
  winin := 0
  winout := 0
  mosaic := 0
  bldcnt := 0
  bldalpha := 0
  bldy := 0
  back := Frame.blank
  front := Frame.blank
  objwin := List.replicate 240 false

/-- The serial storage after reset (10_state.md R46). -/
def Serial.reset : Serial where
  siomulti := Vector.replicate 4 0
  siocnt := 0
  siodata8 := 0
  rcnt := 0
  joycnt := 0
  joyRecv := 0
  joyTrans := 0
  joystat := 0

/-- The sound storage after reset: all 0 but SOUNDBIAS (offset 0x088) = 0x0200 (10_state.md R46). -/
def soundReset : Vector Half 32 := (Vector.replicate 32 0).set 20 0x0200

/-- The devices after a DirectBoot reset with the default parameters, no cartridge and the stub BIOS. -/
def Devices.reset : Devices where
  params := Params.default
  mem := []
  romSize := 0
  backup := []
  run := .running
  ie := 0
  iflag := 0
  ime := 0
  timers := Vector.replicate 4 { reload := 0, counter := 0, ctl := 0, phase := 0 }
  dma := Vector.replicate 4
    { sad := 0, dad := 0, cntL := 0, cntH := 0, src := 0, dst := 0, count := 0, pending := false }
  dmaLatch := 0
  fifoA := 0
  fifoB := 0
  fifoDraws := 0
  portStored := []
  sound := soundReset
  serial := Serial.reset
  keyinput := 0x03FF
  keycnt := 0
  waitcnt := 0
  postflg := 1
  memctl := 0x0D000020
  ppu := Ppu.reset

/-- The host's debug state before any host call. -/
def Debug.initial : Debug where
  breakpoints := []
  bpSkip := false
  singleStep := false
  ring := []
  watchdogLast := none
  watchdogEqual := 0
  watchdogReports := 0

/-- The registers after a DirectBoot reset: all 0 but r13 of usr, irq and svc (10_state.md R33). -/
def regsReset : Vector Word 30 :=
  (((Vector.replicate 30 0).set 13 0x03007F00).set 22 0x03007FA0).set 24 0x03007FE0

/-- The machine right after reset with the default parameters (R850): BOOT_MODE = DirectBoot. -/
def State.reset : State where
  regs := regsReset
  pc := 0x08000000
  cpsr := Psr.ofMode 0x1F
  spsrFiq := Psr.ofMode 0
  spsrIrq := Psr.ofMode 0
  spsrSvc := Psr.ofMode 0
  spsrAbt := Psr.ofMode 0
  spsrUnd := Psr.ofMode 0
  prefetchLatch := 0
  biosLatch := 0xE129F000
  intrwaitMask := 0
  cycleCount := 0
  stale := []
  dbg := Debug.initial
  dev := Devices.reset
  stepCycles := 0
  freeCount := 0

end Sys2Proof.Machine
end

