-- ==== Sys2Proof/Machine/Loop.lean ====
section
/-! DEFINITION. Loops of the spec that need not end, run for more rounds than an evaluation could count to: the DMA loops
of 62_dma.md R712 and 70_reset_and_hazards.md R857, and a walk of the Huffman tree (47_swi_hle.md R543). -/

namespace Sys2Proof.Machine

/-- Where a round of a loop leaves it: with its answer, or with more to do. -/
inductive Round (α β : Type) where
  | done (answer : β)
  | more (next : α)
  deriving DecidableEq, Repr

/-- Up to 2 ^ k rounds of a loop. -/
def rounds {α β : Type} (f : α → Except Fault (Round α β)) : Nat → α → Except Fault (Round α β)
  | 0, a => f a
  | k + 1, a =>
    match rounds f k a with
    | .error r => .error r
    | .ok (.done b) => .ok (.done b)
    | .ok (.more a1) => rounds f k a1

/-- Rounds of a loop until it is done: 2 ^ k of them, then 2 ^ (k + 1), and so on, `n` times; a loop that all of these do
not end is given up as one that never ends, with the fault that names it (notes/assumptions/10). -/
def untilDone {α β : Type} (stuck : Fault) (f : α → Except Fault (Round α β)) : Nat → Nat → α → Except Fault β
  | 0, _, _ => .error stuck
  | n + 1, k, a =>
    match rounds f k a with
    | .error r => .error r
    | .ok (.done b) => .ok b
    | .ok (.more a1) => untilDone stuck f n (k + 1) a1

end Sys2Proof.Machine
end

