-- ==== Sys2Proof/Machine/Memory.lean ====
section
/-! DEFINITION. The bytes of memory: what an unlisted byte reads as, and the two operations on the canonical list. -/

namespace Sys2Proof.Machine

/-- The nonzero words of the stub BIOS_IMAGE (70_reset_and_hazards.md R852). -/
def stubBiosWord (a : Nat) : Word :=
  match a with
  | 0x018 => 0xEA000042
  | 0x128 => 0xE92D500F
  | 0x12C => 0xE3A00301
  | 0x130 => 0xE28FE000
  | 0x134 => 0xE510F004
  | 0x138 => 0xE8BD500F
  | 0x13C => 0xE25EF004
  | 0x144 => 0xE55EC002
  | _ => 0

/-- Byte k of a word, k = 0 the least significant (20_memory.md R118). -/
def byteOf (v : Word) (k : Nat) : Byte := BitVec.ofNat 8 (v.toNat / 2 ^ (8 * k))

/-- What a byte reads as that no write has listed: the stub image in the BIOS region (R852), zero elsewhere (the
default MEM_INIT, 20_memory.md R124). -/
def unlistedByte (a : Nat) : Byte :=
  if a < 0x4000 then byteOf (stubBiosWord (a / 4 * 4)) (a % 4) else 0

/-- The byte at canonical address a. -/
def cellRead : Memory → Nat → Byte
  | [], a => unlistedByte a
  | c :: m, a => if c.1 = a then c.2 else cellRead m a

/-- Write a byte at canonical address a, keeping the canonical form. -/
def cellWrite : Memory → Nat → Byte → Memory
  | [], a, v => if v = unlistedByte a then [] else [(a, v)]
  | c :: m, a, v =>
    if a < c.1 then (if v = unlistedByte a then c :: m else (a, v) :: c :: m)
    else if a = c.1 then (if v = unlistedByte a then m else (a, v) :: m)
    else c :: cellWrite m a v

/-- The canonical form from address lo on: rising addresses, no entry equal to what an unlisted byte reads as. -/
def Memory.wfFrom (lo : Nat) : Memory → Bool
  | [] => true
  | c :: m => decide (lo ≤ c.1) && (decide (c.2 ≠ unlistedByte c.1) && Memory.wfFrom (c.1 + 1) m)

/-- The canonical form. -/
def Memory.wf (m : Memory) : Bool := Memory.wfFrom 0 m

end Sys2Proof.Machine
end

