-- ==== Sys2Proof/Machine/Io.lean ====
section
/-! DEFINITION. The I/O register map (10_state.md R46, R47): which register a halfword offset names, what it reads as,
and what a write does. -/

namespace Sys2Proof.Machine

/-- The I/O registers by halfword. `lo` and `hi` are the halves of a 32-bit register. -/
inductive IoReg where
  | dispcnt | greenswap | dispstat | vcount
  | bgcnt (n : Fin 4) | bghofs (n : Fin 4) | bgvofs (n : Fin 4)
  | bgpa (n : Fin 2) | bgpb (n : Fin 2) | bgpc (n : Fin 2) | bgpd (n : Fin 2)
  | bgxLo (n : Fin 2) | bgxHi (n : Fin 2) | bgyLo (n : Fin 2) | bgyHi (n : Fin 2)
  | winh (n : Fin 2) | winv (n : Fin 2) | winin | winout | mosaic | bldcnt | bldalpha | bldy
  | sound (i : Fin 32) | fifoA | fifoB
  | dmaSadLo (n : Fin 4) | dmaSadHi (n : Fin 4) | dmaDadLo (n : Fin 4) | dmaDadHi (n : Fin 4)
  | dmaCntL (n : Fin 4) | dmaCntH (n : Fin 4)
  | tmCntL (n : Fin 4) | tmCntH (n : Fin 4)
  | siomulti (i : Fin 4) | siocnt | siodata8 | keyinput | keycnt | rcnt | joycnt
  | joyRecvLo | joyRecvHi | joyTransLo | joyTransHi | joystat
  | ie | iflag | waitcnt | ime | postflgHaltcnt
  deriving DecidableEq, Repr

/-- The DMA register at halfword k of channel n's six. -/
def dmaReg (n : Fin 4) (k : Nat) : IoReg :=
  match k with
  | 0 => .dmaSadLo n | 1 => .dmaSadHi n | 2 => .dmaDadLo n | 3 => .dmaDadHi n | 4 => .dmaCntL n | _ => .dmaCntH n

/-- The affine registers of BG n + 2: eight halfwords from BGnPA to BGnY (64_ppu.md R751, R752). -/
def affineReg (n : Fin 2) (k : Nat) : IoReg :=
  match k with
  | 0 => .bgpa n | 1 => .bgpb n | 2 => .bgpc n | 3 => .bgpd n
  | 4 => .bgxLo n | 5 => .bgxHi n | 6 => .bgyLo n | _ => .bgyHi n

/-- The register at an even I/O offset below 0x400, `none` where the address is unused (R46). -/
def ioDecode (off : Nat) : Option IoReg :=
  if off < 0x060 then
    if off < 0x010 then
      match off with
      | 0x000 => some .dispcnt | 0x002 => some .greenswap | 0x004 => some .dispstat | 0x006 => some .vcount
      | _ => some (.bgcnt (Fin.ofNat 4 ((off - 0x008) / 2)))
    else if off < 0x020 then
      if off % 4 = 0 then some (.bghofs (Fin.ofNat 4 ((off - 0x010) / 4)))
      else some (.bgvofs (Fin.ofNat 4 ((off - 0x010) / 4)))
    else if off < 0x040 then some (affineReg (Fin.ofNat 2 ((off - 0x020) / 16)) (off % 16 / 2))
    else
      match off with
      | 0x040 => some (.winh 0) | 0x042 => some (.winh 1) | 0x044 => some (.winv 0) | 0x046 => some (.winv 1)
      | 0x048 => some .winin | 0x04A => some .winout | 0x04C => some .mosaic
      | 0x050 => some .bldcnt | 0x052 => some .bldalpha | 0x054 => some .bldy
      | _ => none
  else if off < 0x0A0 then some (.sound (Fin.ofNat 32 ((off - 0x060) / 2)))
  else if off < 0x0B0 then
    if off < 0x0A4 then some .fifoA else if off < 0x0A8 then some .fifoB else none
  else if off < 0x0E0 then some (dmaReg (Fin.ofNat 4 ((off - 0x0B0) / 12)) ((off - 0x0B0) % 12 / 2))
  else if off < 0x100 then none
  else if off < 0x110 then
    if off % 4 = 0 then some (.tmCntL (Fin.ofNat 4 ((off - 0x100) / 4)))
    else some (.tmCntH (Fin.ofNat 4 ((off - 0x100) / 4)))
  else
    match off with
    | 0x120 => some (.siomulti 0) | 0x122 => some (.siomulti 1) | 0x124 => some (.siomulti 2)
    | 0x126 => some (.siomulti 3) | 0x128 => some .siocnt | 0x12A => some .siodata8
    | 0x130 => some .keyinput | 0x132 => some .keycnt | 0x134 => some .rcnt | 0x140 => some .joycnt
    | 0x150 => some .joyRecvLo | 0x152 => some .joyRecvHi | 0x154 => some .joyTransLo
    | 0x156 => some .joyTransHi | 0x158 => some .joystat
    | 0x200 => some .ie | 0x202 => some .iflag | 0x204 => some .waitcnt | 0x208 => some .ime
    | 0x300 => some .postflgHaltcnt
    | _ => none

/-- Bits 15:0 of a word. -/
def loHalf (v : Word) : Half := BitVec.ofNat 16 v.toNat

/-- Bits 31:16 of a word. -/
def hiHalf (v : Word) : Half := BitVec.ofNat 16 (v.toNat / 0x10000)

/-- The word hi : lo. -/
def wordOf (hi lo : Half) : Word := hi ++ lo

/-- What a register reads as, `none` for a write-only register (R46, R47). POSTFLG and HALTCNT share a halfword and are
read by byte in `ioByte`. -/
def ioRead16 (d : Devices) : IoReg → Option Half
  | .dispcnt => some d.ppu.dispcnt
  | .greenswap => some d.ppu.greenswap
  | .dispstat => some d.ppu.dispstat
  | .vcount => some (BitVec.ofNat 16 d.ppu.line)
  | .bgcnt n => some d.ppu.bgcnt[n]
  | .bghofs _ => none
  | .bgvofs _ => none
  | .bgpa _ => none
  | .bgpb _ => none
  | .bgpc _ => none
  | .bgpd _ => none
  | .bgxLo _ => none
  | .bgxHi _ => none
  | .bgyLo _ => none
  | .bgyHi _ => none
  | .winh _ => none
  | .winv _ => none
  | .winin => some d.ppu.winin
  | .winout => some d.ppu.winout
  | .mosaic => none
  | .bldcnt => some d.ppu.bldcnt
  | .bldalpha => some d.ppu.bldalpha
  | .bldy => none
  | .sound i => some d.sound[i]
  | .fifoA => none
  | .fifoB => none
  | .dmaSadLo _ => none
  | .dmaSadHi _ => none
  | .dmaDadLo _ => none
  | .dmaDadHi _ => none
  | .dmaCntL _ => none
  | .dmaCntH n => some d.dma[n].cntH
  | .tmCntL n => some d.timers[n].counter
  | .tmCntH n => some d.timers[n].ctl
  | .siomulti i => some d.serial.siomulti[i]
  | .siocnt => some d.serial.siocnt
  | .siodata8 => some d.serial.siodata8
  | .keyinput => some d.keyinput
  | .keycnt => some d.keycnt
  | .rcnt => some d.serial.rcnt
  | .joycnt => some d.serial.joycnt
  | .joyRecvLo => some (loHalf d.serial.joyRecv)
  | .joyRecvHi => some (hiHalf d.serial.joyRecv)
  | .joyTransLo => some (loHalf d.serial.joyTrans)
  | .joyTransHi => some (hiHalf d.serial.joyTrans)
  | .joystat => some d.serial.joystat
  | .ie => some d.ie
  | .iflag => some d.iflag
  | .waitcnt => some d.waitcnt
  | .ime => some d.ime
  | .postflgHaltcnt => some (BitVec.ofNat 16 d.postflg.toNat)

/-- Set a bit of IF: an interrupt request (60_exceptions.md R623). -/
def raiseIrq (d : Devices) (bit : Nat) : Devices :=
  { d with iflag := d.iflag ||| BitVec.ofNat 16 (2 ^ bit) }

/-- The keypad condition of KEYCNT on KEYINPUT: all or any of the selected buttons pressed (60_exceptions.md R661). -/
def keypadCondition (keyinput keycnt : Half) : Bool :=
  if keycnt.getLsbD 15 then decide (keyinput &&& keycnt &&& 0x03FF = 0)
  else decide (~~~keyinput &&& keycnt &&& 0x03FF ≠ 0)

/-- EvalKeypad: request the keypad interrupt when KEYCNT bit 14 is set and the condition holds (R661). -/
def evalKeypad (d : Devices) : Devices :=
  if d.keycnt.getLsbD 14 && keypadCondition d.keyinput d.keycnt then raiseIrq d 12 else d

/-- The prescaler period of a timer's control (60_exceptions.md R651). -/
def timerPeriod (ctl : Half) : Nat :=
  match ctl.toNat % 4 with
  | 0 => 1
  | 1 => 64
  | 2 => 256
  | _ => 1024

/-- A write of TMnCNT_H: a start reloads the counter and clears the phase; a running timer that goes on keeps its phase
reduced modulo the new period (60_exceptions.md R652, R655). -/
def timerWriteCtl (t : Timer) (v : Half) : Timer :=
  let ctl := v &&& 0x00C7
  if ctl.getLsbD 7 then
    if t.ctl.getLsbD 7 then { t with ctl := ctl, phase := t.phase % timerPeriod ctl }
    else { t with ctl := ctl, counter := t.reload, phase := 0 }
  else { t with ctl := ctl }

/-- The address mask of DMAnSAD (62_dma.md R701). -/
def dmaSadMask (n : Fin 4) : Word := if n = 0 then 0x07FFFFFF else 0x0FFFFFFF

/-- The address mask of DMAnDAD (62_dma.md R701). -/
def dmaDadMask (n : Fin 4) : Word := if n = 3 then 0x0FFFFFFF else 0x07FFFFFF

/-- Units(n) of a CNT_L value (62_dma.md R702). -/
def dmaUnits (n : Fin 4) (cntL : Half) : BitVec 17 :=
  if n = 3 then (if cntL = 0 then 0x10000 else cntL.zeroExtend 17)
  else if cntL &&& 0x3FFF = 0 then 0x4000 else (cntL &&& 0x3FFF).zeroExtend 17

/-- The stored bits of DMAnCNT_H (62_dma.md R703). -/
def dmaCntHMask (n : Fin 4) : Half := if n = 3 then 0xFFE0 else 0xF7E0

/-- A write of DMAnCNT_H (62_dma.md R704): an enable latches the working registers and schedules an immediate
transfer; a disable drops a pending trigger, a scheduled immediate transfer too (notes/assumptions/17). -/
def dmaWriteCntH (n : Fin 4) (c : DmaChannel) (v : Half) : DmaChannel :=
  let h := v &&& dmaCntHMask n
  if h.getLsbD 15 then
    if c.cntH.getLsbD 15 then { c with cntH := h }
    else { c with cntH := h, src := c.sad, dst := c.dad, count := dmaUnits n c.cntL,
                  pending := decide (h.toNat / 0x1000 % 4 = 0) }
  else { c with cntH := h, pending := false }

/-- Replace the DMA channel n. -/
def setDma (d : Devices) (n : Fin 4) (c : DmaChannel) : Devices := { d with dma := d.dma.set n c }

/-- The half of a word register that a write leaves, the other half new. -/
def withLo (v : Word) (lo : Half) : Word := wordOf (hiHalf v) lo

/-- A word with a new upper half. -/
def withHi (v : Word) (hi : Half) : Word := wordOf hi (loHalf v)

/-- A 28-bit reference point as a word, and back (64_ppu.md R752: bits 31:28 are ignored). -/
def point28 (v : Word) : BitVec 28 := BitVec.ofNat 28 v.toNat

/-- A write of BGnX: the register, then the internal point (64_ppu.md R744). -/
def setBgx (d : Devices) (n : Fin 2) (v : Word) : Devices :=
  { d with ppu := { d.ppu with bgx := d.ppu.bgx.set n (point28 v), bgxInt := d.ppu.bgxInt.set n (point28 v) } }

/-- A write of BGnY: the register, then the internal point (64_ppu.md R744). -/
def setBgy (d : Devices) (n : Fin 2) (v : Word) : Devices :=
  { d with ppu := { d.ppu with bgy := d.ppu.bgy.set n (point28 v), bgyInt := d.ppu.bgyInt.set n (point28 v) } }

/-- A 28-bit point as the word a program wrote, upper bits 0. -/
def pointWord (p : BitVec 28) : Word := BitVec.ofNat 32 p.toNat

/-- The bits of v under the mask, the old ones elsewhere (R47). -/
def mergeHalf (old v mask : Half) : Half := (old &&& ~~~mask) ||| (v &&& mask)

/-- The number of bytes a halfword mask writes. -/
def maskBytes (mask : Half) : Nat := if mask = 0xFFFF then 2 else 1

/-- A write of SOUNDCNT_H: bits 11 and 15 reset the FIFOs and read back 0 (20_memory.md R120). -/
def writeSoundcntH (d : Devices) (old v mask : Half) : Devices :=
  { d with
    sound := d.sound.set 17 (mergeHalf old v mask &&& 0x77FF)
    fifoA := if (v &&& mask).getLsbD 11 then 0 else d.fifoA
    fifoB := if (v &&& mask).getLsbD 15 then 0 else d.fifoB }

/-- A write of POSTFLG, the low byte of its halfword: bit 0 is kept (70_reset_and_hazards.md R853). -/
def writePostflg (d : Devices) (v mask : Half) : Devices :=
  if mask &&& 0x00FF = 0 then d else { d with postflg := BitVec.ofNat 8 v.toNat &&& 1 }

/-- A write of HALTCNT, the high byte of its halfword: bit 7 chooses the halt (60_exceptions.md R641). -/
def writeHaltcnt (d : Devices) (v mask : Half) : Devices :=
  if mask &&& 0xFF00 = 0 then d else { d with run := .halted (if v.getLsbD 15 then .stop else .halt) }

/-- The write rule of a register: v under the mask, 0x00FF or 0xFF00 for a byte write and 0xFFFF for a halfword. -/
def ioWrite16 (d : Devices) (r : IoReg) (v mask : Half) : Devices :=
  match r with
  | .dispcnt => { d with ppu := { d.ppu with dispcnt := mergeHalf d.ppu.dispcnt v mask &&& 0xFFF7 } }
  | .greenswap => { d with ppu := { d.ppu with greenswap := mergeHalf d.ppu.greenswap v mask } }
  | .dispstat =>
    let w := mergeHalf d.ppu.dispstat v mask &&& 0xFF38
    let hit : Half := if d.ppu.line = w.toNat / 0x100 then 4 else 0
    { d with ppu := { d.ppu with dispstat := w ||| (d.ppu.dispstat &&& 3) ||| hit } }
  | .vcount => d
  | .bgcnt n => { d with ppu := { d.ppu with bgcnt := d.ppu.bgcnt.set n (mergeHalf d.ppu.bgcnt[n] v mask) } }
  | .bghofs n =>
    { d with ppu := { d.ppu with bghofs := d.ppu.bghofs.set n (mergeHalf d.ppu.bghofs[n] v mask &&& 0x01FF) } }
  | .bgvofs n =>
    { d with ppu := { d.ppu with bgvofs := d.ppu.bgvofs.set n (mergeHalf d.ppu.bgvofs[n] v mask &&& 0x01FF) } }
  | .bgpa n => { d with ppu := { d.ppu with bgpa := d.ppu.bgpa.set n (mergeHalf d.ppu.bgpa[n] v mask) } }
  | .bgpb n => { d with ppu := { d.ppu with bgpb := d.ppu.bgpb.set n (mergeHalf d.ppu.bgpb[n] v mask) } }
  | .bgpc n => { d with ppu := { d.ppu with bgpc := d.ppu.bgpc.set n (mergeHalf d.ppu.bgpc[n] v mask) } }
  | .bgpd n => { d with ppu := { d.ppu with bgpd := d.ppu.bgpd.set n (mergeHalf d.ppu.bgpd[n] v mask) } }
  | .bgxLo n =>
    let o := pointWord d.ppu.bgx[n]
    setBgx d n (withLo o (mergeHalf (loHalf o) v mask))
  | .bgxHi n =>
    let o := pointWord d.ppu.bgx[n]
    setBgx d n (withHi o (mergeHalf (hiHalf o) v mask))
  | .bgyLo n =>
    let o := pointWord d.ppu.bgy[n]
    setBgy d n (withLo o (mergeHalf (loHalf o) v mask))
  | .bgyHi n =>
    let o := pointWord d.ppu.bgy[n]
    setBgy d n (withHi o (mergeHalf (hiHalf o) v mask))
  | .winh n => { d with ppu := { d.ppu with winh := d.ppu.winh.set n (mergeHalf d.ppu.winh[n] v mask) } }
  | .winv n => { d with ppu := { d.ppu with winv := d.ppu.winv.set n (mergeHalf d.ppu.winv[n] v mask) } }
  | .winin => { d with ppu := { d.ppu with winin := mergeHalf d.ppu.winin v mask &&& 0x3F3F } }
  | .winout => { d with ppu := { d.ppu with winout := mergeHalf d.ppu.winout v mask &&& 0x3F3F } }
  | .mosaic => { d with ppu := { d.ppu with mosaic := mergeHalf d.ppu.mosaic v mask } }
  | .bldcnt => { d with ppu := { d.ppu with bldcnt := mergeHalf d.ppu.bldcnt v mask &&& 0x3FFF } }
  | .bldalpha => { d with ppu := { d.ppu with bldalpha := mergeHalf d.ppu.bldalpha v mask &&& 0x1F1F } }
  | .bldy => { d with ppu := { d.ppu with bldy := mergeHalf d.ppu.bldy v mask &&& 0x001F } }
  | .sound i =>
    if i = 17 then writeSoundcntH d d.sound[i] v mask
    else { d with sound := d.sound.set i (mergeHalf d.sound[i] v mask) }
  | .fifoA => { d with fifoA := min 32 (d.fifoA + maskBytes mask) }
  | .fifoB => { d with fifoB := min 32 (d.fifoB + maskBytes mask) }
  | .dmaSadLo n =>
    let c := d.dma[n]
    setDma d n { c with sad := withLo c.sad (mergeHalf (loHalf c.sad) v mask) &&& dmaSadMask n }
  | .dmaSadHi n =>
    let c := d.dma[n]
    setDma d n { c with sad := withHi c.sad (mergeHalf (hiHalf c.sad) v mask) &&& dmaSadMask n }
  | .dmaDadLo n =>
    let c := d.dma[n]
    setDma d n { c with dad := withLo c.dad (mergeHalf (loHalf c.dad) v mask) &&& dmaDadMask n }
  | .dmaDadHi n =>
    let c := d.dma[n]
    setDma d n { c with dad := withHi c.dad (mergeHalf (hiHalf c.dad) v mask) &&& dmaDadMask n }
  | .dmaCntL n => setDma d n { d.dma[n] with cntL := mergeHalf d.dma[n].cntL v mask }
  | .dmaCntH n => setDma d n (dmaWriteCntH n d.dma[n] (mergeHalf d.dma[n].cntH v mask))
  | .tmCntL n =>
    { d with timers := d.timers.set n { d.timers[n] with reload := mergeHalf d.timers[n].reload v mask } }
  | .tmCntH n =>
    { d with timers := d.timers.set n (timerWriteCtl d.timers[n] (mergeHalf d.timers[n].ctl v mask)) }
  | .siomulti i =>
    { d with serial := { d.serial with siomulti := d.serial.siomulti.set i (mergeHalf d.serial.siomulti[i] v mask) } }
  | .siocnt => { d with serial := { d.serial with siocnt := mergeHalf d.serial.siocnt v mask } }
  | .siodata8 => { d with serial := { d.serial with siodata8 := mergeHalf d.serial.siodata8 v mask } }
  | .keyinput => d
  | .keycnt => evalKeypad { d with keycnt := mergeHalf d.keycnt v mask &&& 0xC3FF }
  | .rcnt => { d with serial := { d.serial with rcnt := mergeHalf d.serial.rcnt v mask } }
  | .joycnt => { d with serial := { d.serial with joycnt := mergeHalf d.serial.joycnt v mask } }
  | .joyRecvLo =>
    let o := d.serial.joyRecv
    { d with serial := { d.serial with joyRecv := withLo o (mergeHalf (loHalf o) v mask) } }
  | .joyRecvHi =>
    let o := d.serial.joyRecv
    { d with serial := { d.serial with joyRecv := withHi o (mergeHalf (hiHalf o) v mask) } }
  | .joyTransLo =>
    let o := d.serial.joyTrans
    { d with serial := { d.serial with joyTrans := withLo o (mergeHalf (loHalf o) v mask) } }
  | .joyTransHi =>
    let o := d.serial.joyTrans
    { d with serial := { d.serial with joyTrans := withHi o (mergeHalf (hiHalf o) v mask) } }
  | .joystat => { d with serial := { d.serial with joystat := mergeHalf d.serial.joystat v mask } }
  | .ie => { d with ie := mergeHalf d.ie v mask &&& 0x3FFF }
  | .iflag => { d with iflag := d.iflag &&& ~~~(v &&& mask) }
  | .waitcnt => { d with waitcnt := mergeHalf d.waitcnt v mask &&& 0x5FFF }
  | .ime => { d with ime := mergeHalf d.ime v mask &&& 1 }
  | .postflgHaltcnt => writeHaltcnt (writePostflg d v mask) v mask

end Sys2Proof.Machine
end

