-- ==== Sys2Proof/Machine/Bus.lean ====
section
/-! DEFINITION. The bus: region decode, reads, writes and the cost of an access (20_memory.md R100 to R123, R130, R131).
Reads change nothing (R122); both directions align the address and never fault (R100, R101, R117). -/

namespace Sys2Proof.Machine

/-- The width of an access. -/
inductive Width where
  | byte
  | half
  | word
  deriving DecidableEq, Repr

/-- The number of bytes of an access. -/
def Width.bytes : Width → Nat
  | .byte => 1
  | .half => 2
  | .word => 4

/-- The regions of the address map (R103). -/
inductive Region where
  | bios | unmapped | ewram | iwram | io | palette | vram | oam | rom (window : Fin 3) | backup
  deriving DecidableEq, Repr

/-- Region decode (R104). -/
def regionOf (a : Nat) : Region :=
  match a / 0x1000000 with
  | 0 => if a < 0x4000 then .bios else .unmapped
  | 1 => .unmapped
  | 2 => .ewram
  | 3 => .iwram
  | 4 => .io
  | 5 => .palette
  | 6 => .vram
  | 7 => .oam
  | 8 | 9 => .rom 0
  | 10 | 11 => .rom 1
  | 12 | 13 => .rom 2
  | 14 | 15 => .backup
  | _ => .unmapped

/-- The aligned address of an access (R100). -/
def alignTo (w : Width) (a : Nat) : Nat := a / w.bytes * w.bytes

/-- What a reader sees besides the devices: the latch its open-bus reads come from (R112, 62_dma.md R713), and the
latch its reads of the BIOS region return, `none` where they return BIOS_IMAGE (R114). -/
structure BusView where
  openLatch : Word
  biosLatch : Option Word
  deriving DecidableEq, Repr

/-- The byte of a latch that a byte at address a is read from (R112). -/
def latchByte (latch : Word) (a : Nat) : Byte := byteOf latch (a % 4)

/-- The VRAM byte at address a (R110). -/
def vramOffset (a : Nat) : Nat :=
  let o := a % 0x20000
  if 0x18000 ≤ o then o - 0x8000 else o

/-- The canonical address of the VRAM byte at offset o from 0x06000000 (R110). -/
def vramKey (a : Nat) : Nat := 0x06000000 + vramOffset a

/-- The ROM offset of address a in any window: R115 steps 1 and 2. -/
def romOffset (d : Devices) (a : Nat) : Nat := a % 0x02000000 % d.params.romMirror

/-- The canonical address of the byte of RAM at address a, `none` for an address that no RAM holds (R106, R107,
R109 to R111). -/
def ramKey (a : Nat) : Option Nat :=
  match regionOf a with
  | .ewram => some (0x02000000 + a % 0x40000)
  | .iwram => some (0x03000000 + a % 0x8000)
  | .palette => some (0x05000000 + a % 0x400)
  | .vram => some (vramKey a)
  | .oam => some (0x07000000 + a % 0x400)
  | .bios => none
  | .unmapped => none
  | .io => none
  | .rom _ => none
  | .backup => none

/-- The value synthesized for the byte at a ROM address beyond ROM_SIZE (R115 step 3). -/
def romBeyondByte (a : Nat) : Byte := BitVec.ofNat 8 (a / 2 / 2 ^ (8 * (a % 2)))

/-- A ROM byte (R115). -/
def romByte (d : Devices) (a : Nat) : Byte :=
  if romOffset d a < d.romSize then cellRead d.mem (0x08000000 + romOffset d a) else romBeyondByte a

/-- Whether SAVE_TYPE is an EEPROM (R116). -/
def usesEeprom (d : Devices) : Bool :=
  match d.params.saveType with
  | .eeprom4K => true
  | .eeprom64K => true
  | .none => false
  | .batteryRam => false
  | .flash512 => false
  | .flash1M => false

/-- Whether SAVE_TYPE is an 8-bit store (R116). -/
def usesSram (d : Devices) : Bool :=
  match d.params.saveType with
  | .batteryRam => true
  | .flash512 => true
  | .flash1M => true
  | .none => false
  | .eeprom4K => false
  | .eeprom64K => false

/-- Whether an address lies in the EEPROM window (R116). -/
def inEepromWindow (d : Devices) (a : Nat) : Bool :=
  usesEeprom d && (if d.romSize ≤ 0x1000000 then decide (a / 0x1000000 = 0x0D)
    else decide (0x0DFFFF00 ≤ a) && decide (a < 0x0E000000))

/-- A byte of the EEPROM window: the halfword the store answers, by byte (R116; notes/assumptions/24). -/
def eepromByte (d : Devices) (a : Nat) : Byte :=
  BitVec.ofNat 8 ((Config.eepromRead16 d.params.saveType d.backup).toNat / 2 ^ (8 * (a % 2)))

/-- The byte the backup window answers at an address (R116). -/
def backupByte (d : Devices) (a : Nat) : Byte :=
  if usesSram d then Config.backupRead8 d.params.saveType d.backup (BitVec.ofNat 16 a) else 0xFF

/-- An I/O byte: a readable register's byte, and open bus elsewhere (R108, R121, 10_state.md R46, R47). -/
def ioByte (d : Devices) (latch : Word) (a : Nat) : Byte :=
  if a % 0x1000000 < 0x400 then
    match ioDecode (a % 0x400 / 2 * 2) with
    | none => latchByte latch a
    | some .postflgHaltcnt => if a % 2 = 0 then d.postflg else latchByte latch a
    | some r =>
      match ioRead16 d r with
      | none => latchByte latch a
      | some v => BitVec.ofNat 8 (v.toNat / 2 ^ (8 * (a % 2)))
  else if a % 0x10000 / 4 = 0x200 then byteOf d.memctl (a % 4)
  else latchByte latch a

/-- The byte at address a, for a read whose unaligned address is `raw` (R103). Every region is read at the aligned
address but the backup window, whose rule names lanes of the address: it is read at `raw` (R116; notes/assumptions/6). -/
def busByte (d : Devices) (v : BusView) (raw a : Nat) : Byte :=
  match regionOf a with
  | .bios =>
    match v.biosLatch with
    | some l => latchByte l a
    | none => cellRead d.mem a
  | .unmapped => latchByte v.openLatch a
  | .ewram => cellRead d.mem (0x02000000 + a % 0x40000)
  | .iwram => cellRead d.mem (0x03000000 + a % 0x8000)
  | .io => ioByte d v.openLatch a
  | .palette => cellRead d.mem (0x05000000 + a % 0x400)
  | .vram => cellRead d.mem (vramKey a)
  | .oam => cellRead d.mem (0x07000000 + a % 0x400)
  | .rom _ => if inEepromWindow d a then eepromByte d a else romByte d a
  | .backup => backupByte d raw

/-- The word of four bytes, b0 at the lowest address (R118). -/
def wordOfBytes (b3 b2 b1 b0 : Byte) : Word := b3 ++ b2 ++ b1 ++ b0

/-- MemRead: the bytes of the aligned access, little-endian, zero-extended to a word (R100, R118). -/
def busRead (d : Devices) (v : BusView) (w : Width) (a : Word) : Word :=
  let raw := a.toNat
  let b := alignTo w raw
  match w with
  | .byte => wordOfBytes 0 0 0 (busByte d v raw b)
  | .half => wordOfBytes 0 0 (busByte d v raw (b + 1)) (busByte d v raw b)
  | .word => wordOfBytes (busByte d v raw (b + 3)) (busByte d v raw (b + 2)) (busByte d v raw (b + 1)) (busByte d v raw b)

/-- Write a byte of RAM at its canonical address. -/
def writeCell (d : Devices) (key : Nat) (b : Byte) : Devices := { d with mem := cellWrite d.mem key b }

/-- Write the bytes of an access to consecutive canonical addresses (R101, R118). -/
def writeCells (d : Devices) (w : Width) (key : Nat) (v : Word) : Devices :=
  match w with
  | .byte => writeCell d key (byteOf v 0)
  | .half => writeCell (writeCell d key (byteOf v 0)) (key + 1) (byteOf v 1)
  | .word =>
    writeCell (writeCell (writeCell (writeCell d key (byteOf v 0)) (key + 1) (byteOf v 1)) (key + 2) (byteOf v 2))
      (key + 3) (byteOf v 3)

/-- The word with a byte in both its low bytes: a widened narrow write (R109, R110). -/
def doubledByte (v : Word) : Word := wordOfBytes 0 0 (byteOf v 0) (byteOf v 0)

/-- The OBJ boundary of the current BG mode (R110, which names modes 0 to 5; modes 6 and 7 are DEDUCED
from 64_ppu.md R779, notes/assumptions/34). -/
def objBoundary (d : Devices) : Nat :=
  if 3 ≤ d.ppu.dispcnt.toNat % 8 ∧ d.ppu.dispcnt.toNat % 8 ≤ 5 then 0x14000 else 0x10000

/-- A byte write to VRAM at or above the OBJ boundary is ignored (R110). -/
def vramByteIgnored (d : Devices) (a : Nat) : Bool := decide (objBoundary d ≤ vramOffset a)

/-- Write a halfword to the register at an even I/O offset, under a mask; an unused offset ignores it (R46). -/
def ioWriteAt (d : Devices) (off : Nat) (v mask : Half) : Devices :=
  match ioDecode off with
  | none => d
  | some r => ioWrite16 d r v mask

/-- The 32-bit mask and value of a write's bytes at their lanes of a word. -/
def laneValue (w : Width) (a : Nat) (v : Word) : Word :=
  match w with
  | .byte => (v &&& 0xFF) <<< (8 * (a % 4))
  | .half => (v &&& 0xFFFF) <<< (8 * (a % 4))
  | .word => v

/-- The bits of a word that a write of this width at an aligned address covers. -/
def laneMask (w : Width) (a : Nat) : Word := laneValue w a 0xFFFFFFFF

/-- A write in the I/O region: a byte as its lane of a halfword, a word as two halfwords, low first (10_state.md R47);
the internal memory control register (R108, R121); elsewhere ignored. -/
def ioWrite (d : Devices) (w : Width) (a : Nat) (v : Word) : Devices :=
  if a % 0x1000000 < 0x400 then
    let off := a % 0x400 / 2 * 2
    match w with
    | .byte =>
      if a % 2 = 0 then ioWriteAt d off (loHalf (doubledByte v)) 0x00FF
      else ioWriteAt d off (loHalf (doubledByte v)) 0xFF00
    | .half => ioWriteAt d off (loHalf v) 0xFFFF
    | .word => ioWriteAt (ioWriteAt d off (loHalf v) 0xFFFF) (off + 2) (hiHalf v) 0xFFFF
  else if a % 0x10000 / 4 = 0x200 then
    { d with memctl := (d.memctl &&& ~~~laneMask w a) ||| laneValue w a v }
  else d

/-- The number of the halfword of I/O or of the backup window that an address lies in. Mirrors share theirs: of the memory
control register (R108), and of the backup window, which the store addresses by 16 bits (R116). -/
def portHalf (a : Nat) : Nat :=
  if 0x0E000000 ≤ a then 0x800000 + a % 0x10000 / 2
  else if a % 0x10000 / 4 = 0x200 then 0x400 + a % 4 / 2
  else a % 0x1000000 / 2

/-- The halfwords of I/O or of the backup window that an access at an aligned address covers. -/
def portHalves (w : Width) (a : Nat) : List Nat :=
  match w with
  | .byte => [portHalf a]
  | .half => [portHalf a]
  | .word => [portHalf a, portHalf (a + 2)]

/-- Note that a store of this step wrote these halfwords (70_reset_and_hazards.md R870; notes/assumptions/9). -/
def notePort (halves : List Nat) (d : Devices) : Devices := { d with portStored := halves.foldr List.insert d.portStored }

/-- Record a call that changes the BackupStore (R116). -/
def backupCall (d : Devices) (c : BackupCall) : Devices := { d with backup := c :: d.backup }

/-- A write in the EEPROM window: a word is two halfword writes (R116, R123; notes/assumptions/24). -/
def eepromWrite (d : Devices) (w : Width) (v : Word) : Devices :=
  match w with
  | .byte => backupCall d (.eepromWrite 1 (v &&& 0xFF))
  | .half => backupCall d (.eepromWrite 2 (v &&& 0xFFFF))
  | .word => backupCall (backupCall d (.eepromWrite 2 (v &&& 0xFFFF))) (.eepromWrite 2 (v >>> 16))

/-- A write in the backup window: the byte of v at the lane of the unaligned address, passed with that address; under an
EEPROM save type, as under none, it is ignored (R116; notes/assumptions/6). -/
def backupWrite (d : Devices) (w : Width) (raw : Nat) (v : Word) : Devices :=
  if usesSram d then
    notePort (portHalves w (alignTo w raw)) (backupCall d (.write8 (BitVec.ofNat 16 raw) (byteOf v (raw % w.bytes))))
  else d

/-- MemWrite (R101) with the write rules of R105 to R117. -/
def busWrite (d : Devices) (w : Width) (a : Word) (v : Word) : Devices :=
  let b := alignTo w a.toNat
  match regionOf b with
  | .bios => d
  | .unmapped => d
  | .ewram => writeCells d w (0x02000000 + b % 0x40000) v
  | .iwram => writeCells d w (0x03000000 + b % 0x8000) v
  | .io => ioWrite (notePort (portHalves w b) d) w b v
  | .palette =>
    match w with
    | .byte => writeCells d .half (0x05000000 + b % 0x400 / 2 * 2) (doubledByte v)
    | .half => writeCells d .half (0x05000000 + b % 0x400) v
    | .word => writeCells d .word (0x05000000 + b % 0x400) v
  | .vram =>
    match w with
    | .byte => if vramByteIgnored d b then d else writeCells d .half (vramKey (b / 2 * 2)) (doubledByte v)
    | .half => writeCells d .half (vramKey b) v
    | .word => writeCells d .word (vramKey b) v
  | .oam =>
    match w with
    | .byte => d
    | .half => writeCells d .half (0x07000000 + b % 0x400) v
    | .word => writeCells d .word (0x07000000 + b % 0x400) v
  | .rom _ => if inEepromWindow d b then eepromWrite d w v else d
  | .backup => backupWrite d w a.toNat v

/-- The canonical addresses of the RAM bytes at n addresses from b up. -/
def ramKeys (n b : Nat) : List Nat := (List.range n).filterMap fun k => ramKey (b + k)

/-- The canonical addresses of the RAM bytes a write of this width at this address stores to: the bytes of the aligned
access, but for a byte write to palette RAM or to VRAM below the OBJ boundary the aligned halfword, and none for one to
VRAM from the boundary on or to OAM (R101, R106, R107, R109 to R111). -/
def storedKeys (d : Devices) (w : Width) (a : Word) : List Nat :=
  let b := alignTo w a.toNat
  match w with
  | .byte =>
    match regionOf b with
    | .ewram => ramKeys 1 b
    | .iwram => ramKeys 1 b
    | .palette => ramKeys 2 (b / 2 * 2)
    | .vram => if vramByteIgnored d b then [] else ramKeys 2 (b / 2 * 2)
    | .oam => []
    | .bios => []
    | .unmapped => []
    | .io => []
    | .rom _ => []
    | .backup => []
  | .half => ramKeys 2 b
  | .word => ramKeys 4 b

/-- First-access wait states of a WAITCNT field (R130). -/
def firstWait (f : Nat) : Nat :=
  match f % 4 with
  | 0 => 4
  | 1 => 3
  | 2 => 2
  | _ => 8

/-- The wait states of a ROM window's non-sequential access (R130). -/
def romWaitN (waitcnt : Half) (window : Fin 3) : Nat :=
  match window with
  | 0 => firstWait (waitcnt.toNat / 4)
  | 1 => firstWait (waitcnt.toNat / 32)
  | 2 => firstWait (waitcnt.toNat / 256)

/-- The wait states of a ROM window's sequential access (R130). -/
def romWaitS (waitcnt : Half) (window : Fin 3) : Nat :=
  match window with
  | 0 => if waitcnt.getLsbD 4 then 1 else 2
  | 1 => if waitcnt.getLsbD 7 then 1 else 4
  | 2 => if waitcnt.getLsbD 10 then 1 else 8

/-- Whether an access is sequential (R131). -/
inductive Access where
  | nonseq
  | seq
  deriving DecidableEq, Repr

/-- The cycles of a ROM access (R131): an address that is a multiple of 128 KiB is non-sequential. -/
def romCost (waitcnt : Half) (window : Fin 3) (w : Width) (a : Nat) (q : Access) : Nat :=
  let s := 1 + romWaitS waitcnt window
  let first := if q = .nonseq ∨ a % 0x20000 = 0 then 1 + romWaitN waitcnt window else s
  match w with
  | .byte => first
  | .half => first
  | .word => first + s

/-- The cycles of an access by the table, CYCLE_COST's default (R131). -/
def accessCost (d : Devices) (w : Width) (a : Word) (q : Access) : Nat :=
  let b := alignTo w a.toNat
  match regionOf b with
  | .bios => 1
  | .iwram => 1
  | .io => 1
  | .oam => 1
  | .unmapped => 1
  | .ewram => if w = .word then 6 else 3
  | .palette => if w = .word then 2 else 1
  | .vram => if w = .word then 2 else 1
  | .rom n => romCost d.waitcnt n w b q
  | .backup => 1 + firstWait d.waitcnt.toNat

/-- The cycles of an access under CYCLE_COST (R131, 92_eei_decisions.md D7; notes/assumptions/35). -/
def accessCycles (d : Devices) (w : Width) (a : Word) (q : Access) : Nat :=
  match d.params.cycleCost with
  | .table => accessCost d w a q
  | .replaced => Config.accessCycles w.bytes a (q == .seq) d.waitcnt

/-- GetAccessCycles: one non-sequential access (R132). -/
def getAccessCycles (d : Devices) (a : Word) (w : Width) : Nat := accessCycles d w a .nonseq

end Sys2Proof.Machine
end

