-- ==== Sys2Proof/Machine/Timers.lean ====
section
/-! DEFINITION. The timers, the audio FIFO request input and the timers' share of a device cycle (60_exceptions.md R650
to R656, 62_dma.md R709, R718). -/

namespace Sys2Proof.Machine

/-- The DMA channel's start timing, CNT_H bits 13:12 (62_dma.md R703). -/
def dmaTiming (cntH : Half) : Nat := cntH.toNat / 0x1000 % 4

/-- Whether a channel is enabled (R703). -/
def dmaEnabled (c : DmaChannel) : Bool := c.cntH.getLsbD 15

/-- Mark a channel's trigger as waiting to be served. -/
def dmaTrigger (d : Devices) (n : Fin 4) : Devices := setDma d n { d.dma[n] with pending := true }

/-- Fire a channel when it is armed with a timing (62_dma.md R707, R708). -/
def dmaFire (d : Devices) (timing : Nat) (n : Fin 4) : Devices :=
  if dmaEnabled d.dma[n] && dmaTiming d.dma[n].cntH == timing then dmaTrigger d n else d

/-- Fire every armed channel with a timing. -/
def dmaFireAll (d : Devices) (timing : Nat) : Devices :=
  dmaFire (dmaFire (dmaFire (dmaFire d timing 0) timing 1) timing 2) timing 3

/-- FIFO_REQUEST: fire channel n when it is armed in FIFO mode and its DAD is the FIFO's address (62_dma.md R709). -/
def fifoFire (d : Devices) (fifoAddr : Word) (n : Fin 4) : Devices :=
  if d.dma[n].dad = fifoAddr then dmaFire d 3 n else d

/-- FIFO_REQUEST for both FIFO channels (R709). -/
def fifoRequest (d : Devices) (fifoAddr : Word) : Devices := fifoFire (fifoFire d fifoAddr 1) fifoAddr 2

/-- Whether SOUNDCNT_H selects timer n by this bit (60_exceptions.md R656). -/
def fifoSelects (d : Devices) (bit n : Nat) : Bool := d.sound[17].getLsbD bit == decide (n = 1)

/-- FIFO A at an overflow of its timer: one byte is consumed, and a request raised at 16 or fewer (62_dma.md R718). -/
def clockFifoA (d : Devices) (n : Nat) : Devices :=
  if fifoSelects d 10 n then
    let d1 := { d with fifoA := d.fifoA - 1 }
    if d1.fifoA ≤ 16 then fifoRequest d1 0x040000A0 else d1
  else d

/-- FIFO B at an overflow of its timer (R718). -/
def clockFifoB (d : Devices) (n : Nat) : Devices :=
  if fifoSelects d 14 n then
    let d1 := { d with fifoB := d.fifoB - 1 }
    if d1.fifoB ≤ 16 then fifoRequest d1 0x040000A4 else d1
  else d

/-- An external audio block's request for one FIFO at a timer overflow: raised or not, a free choice (00_scope.md R9,
62_dma.md R718; notes/assumptions/27). -/
def externalFifo (d : Devices) (fifoAddr : Word) : Devices :=
  let d1 := { d with fifoDraws := d.fifoDraws + 1 }
  if Config.fifoRaises d.fifoDraws then fifoRequest d1 fifoAddr else d1

/-- Signal an overflow of timer 0 or 1 to the audio FIFO logic (60_exceptions.md R653, R656). -/
def clockFifos (d : Devices) (n : Nat) : Devices :=
  if n ≤ 1 then
    match d.params.fifoModel with
    | .occupancy => clockFifoB (clockFifoA d n) n
    | .external => externalFifo (externalFifo d 0x040000A0) 0x040000A4
  else d

/-- Whether a timer runs. -/
def timerRunning (t : Timer) : Bool := t.ctl.getLsbD 7

/-- Whether timer n counts the overflows of timer n - 1; the bit is ignored for timer 0 (60_exceptions.md R651). -/
def timerCascades (n : Fin 4) (t : Timer) : Bool := t.ctl.getLsbD 2 && decide (n ≠ 0)

/-- Replace a timer. -/
def setTimer (d : Devices) (n : Fin 4) (t : Timer) : Devices := { d with timers := d.timers.set n t }

/-- Increment timer n's counter (R653); `next` increments timer n + 1 when an overflow cascades into it (R654). -/
def timerIncrement (n : Fin 4) (next : Devices → Devices) (d : Devices) : Devices :=
  let t := d.timers[n]
  if t.counter = 0xFFFF then
    let d1 := setTimer d n { t with counter := t.reload }
    let d2 := if t.ctl.getLsbD 6 then raiseIrq d1 (3 + n.val) else d1
    clockFifos (next d2) n.val
  else setTimer d n { t with counter := t.counter + 1 }

/-- Increment timer 3. -/
def timerInc3 (d : Devices) : Devices := timerIncrement 3 id d

/-- The cascade into a timer: increment it when it runs with count-up. -/
def cascadeInto (n : Fin 4) (inc : Devices → Devices) (d : Devices) : Devices :=
  if timerRunning d.timers[n] && timerCascades n d.timers[n] then inc d else d

/-- Increment timer 2. -/
def timerInc2 (d : Devices) : Devices := timerIncrement 2 (cascadeInto 3 timerInc3) d

/-- Increment timer 1. -/
def timerInc1 (d : Devices) : Devices := timerIncrement 1 (cascadeInto 2 timerInc2) d

/-- Increment timer 0. -/
def timerInc0 (d : Devices) : Devices := timerIncrement 0 (cascadeInto 1 timerInc1) d

/-- One cycle of timer n: a running timer that does not cascade advances its phase and increments at the period
(60_exceptions.md R652). -/
def timerTick (n : Fin 4) (inc : Devices → Devices) (d : Devices) : Devices :=
  let t := d.timers[n]
  if timerRunning t && !timerCascades n t then
    if timerPeriod t.ctl ≤ t.phase + 1 then inc (setTimer d n { t with phase := 0 })
    else setTimer d n { t with phase := t.phase + 1 }
  else d

/-- One cycle of the timers, in order (R653). -/
def tickTimers (d : Devices) : Devices :=
  timerTick 3 timerInc3 (timerTick 2 timerInc2 (timerTick 1 timerInc1 (timerTick 0 timerInc0 d)))

end Sys2Proof.Machine
end

