-- ==== Sys2Proof/Machine/Dma.lean ====
section
/-! DEFINITION. DMA transfers (spec/62_dma.md R705, R709 to R715). -/

namespace Sys2Proof.Machine

/-- Whether a channel's transfer is a FIFO transfer: channel 1 or 2 with timing 3 (R709). -/
def dmaFifoMode (n : Fin 4) (cntH : Half) : Bool := (n == 1 || n == 2) && dmaTiming cntH == 3

/-- What a transfer keeps from its start (R710): unit width, number of units, address steps and control. -/
structure DmaRun where
  chan    : Fin 4
  cntH    : Half
  fifo    : Bool
  width   : Width
  units   : Nat
  deriving DecidableEq, Repr

/-- The parameters of a transfer of channel n, captured at its start (R709, R710). -/
def dmaStart (d : Devices) (n : Fin 4) : DmaRun :=
  let c := d.dma[n]
  let fifo := dmaFifoMode n c.cntH
  { chan := n, cntH := c.cntH, fifo := fifo
    width := if fifo || c.cntH.getLsbD 10 then .word else .half
    units := if fifo then 4 else c.count.toNat }

/-- Step of an address: 0 and 3 up, 1 down, 2 fixed (R710). -/
def dmaStep (ctl : Nat) (w : Width) (a : Word) : Word :=
  match ctl with
  | 1 => a - BitVec.ofNat 32 w.bytes
  | 2 => a
  | _ => a + BitVec.ofNat 32 w.bytes

/-- What a DMA read sees: `dma_latch` for the BIOS region and for open bus (R713). -/
def dmaView (d : Devices) : BusView := { openLatch := d.dmaLatch, biosLatch := some d.dmaLatch }

/-- Whether a DMA read of an aligned address leaves `dma_latch` alone: the BIOS region and unmapped addresses (R713). -/
def dmaKeepsLatch (a : Nat) : Bool :=
  match regionOf a with
  | .bios => true
  | .unmapped => true
  | .ewram => false
  | .iwram => false
  | .io => false
  | .palette => false
  | .vram => false
  | .oam => false
  | .rom _ => false
  | .backup => false

/-- `dma_latch` after a read of v: v, or v : v for a halfword (R713). -/
def latched (w : Width) (v : Word) : Word :=
  match w with
  | .word => v
  | .half => wordOf (loHalf v) (loHalf v)
  | .byte => v

/-- One unit: a read, a write, and the steps of the working addresses; answers the unit's cycles (R710). -/
def dmaUnit (r : DmaRun) (q : Access) (d : Devices) : Devices × Nat :=
  let size := r.width.bytes
  let c := d.dma[r.chan]
  let s : Word := BitVec.ofNat 32 (c.src.toNat / size * size)
  let t : Word := BitVec.ofNat 32 (c.dst.toNat / size * size)
  let v := busRead d (dmaView d) r.width s
  let d1 := if dmaKeepsLatch s.toNat then d else { d with dmaLatch := latched r.width v }
  let d2 := busWrite d1 r.width t v
  let c2 := d2.dma[r.chan]
  let src := dmaStep (r.cntH.toNat / 0x80 % 4) r.width c2.src &&& dmaSadMask r.chan
  let dst := if r.fifo then c2.dst else dmaStep (r.cntH.toNat / 0x20 % 4) r.width c2.dst &&& dmaDadMask r.chan
  (setDma d2 r.chan { c2 with src := src, dst := dst }, accessCycles d2 r.width s q + accessCycles d2 r.width t q)

/-- The units of a transfer in order, the first with N accesses and the rest with S (R710, R714). -/
def dmaLoop (r : DmaRun) : Nat → Access → Devices → Nat → Devices × Nat
  | 0, _, d, cycles => (d, cycles)
  | k + 1, q, d, cycles =>
    let u := dmaUnit r q d
    dmaLoop r k .seq u.1 (cycles + u.2)

/-- The end of a transfer, by the control captured at its start (R711). In FIFO mode the destination stays as it is,
whatever the dest control says (R709; notes/assumptions/17). -/
def dmaEnd (r : DmaRun) (d : Devices) : Devices :=
  let d1 := if r.cntH.getLsbD 14 then raiseIrq d (8 + r.chan.val) else d
  let c := d1.dma[r.chan]
  if r.cntH.getLsbD 9 && dmaTiming r.cntH != 0 then
    setDma d1 r.chan
      { c with
        count := if r.fifo then c.count else dmaUnits r.chan c.cntL
        dst := if !r.fifo && r.cntH.toNat / 0x20 % 4 == 3 then c.dad else c.dst }
  else setDma d1 r.chan { c with cntH := c.cntH &&& 0x7FFF, pending := false }

/-- The cycles of a transfer's setup, 2 by the table (R714, 92_eei_decisions.md D7). -/
def dmaSetup (p : Params) : Nat :=
  match p.cycleCost with
  | .table => 2
  | .replaced => Config.dmaSetupCycles

/-- A transfer of channel n: its setup, the units, the end (R710, R714). Its trigger is served. -/
def dmaTransfer (d : Devices) (n : Fin 4) : Devices × Nat :=
  let r := dmaStart d n
  let d0 := setDma d n { d.dma[n] with pending := false }
  let u := dmaLoop r r.units .nonseq d0 (dmaSetup d.params)
  (dmaEnd r u.1, u.2)

/-- The lowest channel with a trigger to serve (R712). -/
def dmaNext (d : Devices) : Option (Fin 4) :=
  if d.dma[0].pending then some 0
  else if d.dma[1].pending then some 1
  else if d.dma[2].pending then some 2
  else if d.dma[3].pending then some 3
  else none

/-- Devices and cycles, or the fault of a loop that never ends. -/
abbrev Timed := Except Fault (Devices × Nat)

/-- One round of serving triggers: the transfer of the lowest waiting channel, or done (R706, R712). -/
def serveRound (t : Devices × Nat) : Except Fault (Round (Devices × Nat) (Devices × Nat)) :=
  match dmaNext t.1 with
  | none => .ok (.done t)
  | some n =>
    let u := dmaTransfer t.1 n
    .ok (.more (u.1, t.2 + u.2))

/-- Serve every waiting trigger, lowest channel first, with those that a transfer raises (R706, R712); answers the
cycles. -/
def serveDma (d : Devices) : Timed := untilDone .dmaChainNeverEnds serveRound Config.loopBound 0 (d, 0)

end Sys2Proof.Machine
end

