-- ==== Sys2Proof/Machine/Ops.lean ====
section
/-! DEFINITION. The named operations on the state that every meaning is written with: registers and banks
(10_state.md R30 to R36), status registers (R37 to R43), data accesses, cycles (70_reset_and_hazards.md R880 to R882),
free values, conditions (30_encoding.md R204, R205), and taking and returning from an exception (60_exceptions.md
R606, R609). -/

namespace Sys2Proof.Machine

/-- What a meaning answers. -/
abbrev Result := Host.Outcome State Fault Refusal

/-- Go on from a next state. -/
def andThen (o : Result) (f : State → Result) : Result :=
  match o with
  | .next s => f s
  | .fault r => .fault r
  | .refused r => .refused r

/-- M[4:0] of User mode (10_state.md R31). -/
def modeUsr : BitVec 5 := 0x10
/-- M[4:0] of FIQ mode. -/
def modeFiq : BitVec 5 := 0x11
/-- M[4:0] of IRQ mode. -/
def modeIrq : BitVec 5 := 0x12
/-- M[4:0] of Supervisor mode. -/
def modeSvc : BitVec 5 := 0x13
/-- M[4:0] of Abort mode. -/
def modeAbt : BitVec 5 := 0x17
/-- M[4:0] of Undefined mode. -/
def modeUnd : BitVec 5 := 0x1B
/-- M[4:0] of System mode. -/
def modeSys : BitVec 5 := 0x1F

/-- The seven modes of R31. -/
def legalMode (m : BitVec 5) : Bool :=
  m == modeUsr || m == modeFiq || m == modeIrq || m == modeSvc || m == modeAbt || m == modeUnd || m == modeSys

/-- Where r13 of a mode stands among the physical registers (R32). -/
def bankOf13 (m : BitVec 5) : Fin 30 :=
  if m = modeFiq then 20
  else if m = modeIrq then 22
  else if m = modeSvc then 24
  else if m = modeAbt then 26
  else if m = modeUnd then 28
  else 13

/-- The physical register that name r0 to r14 selects in a mode (R32); name r15 selects none, and reads r14's here. -/
def bankIndex (m : BitVec 5) (i : Reg) : Fin 30 :=
  if i < 8 then Fin.ofNat 30 i.val
  else if i < 13 then (if m = modeFiq then Fin.ofNat 30 (i.val + 7) else Fin.ofNat 30 i.val)
  else if i = 13 then bankOf13 m
  else bankOf13 m + 1

/-- r0 to r14 of a mode's bank. -/
def State.bankedReg (s : State) (m : BitVec 5) (i : Reg) : Word := s.regs[bankIndex m i]

/-- Write r0 to r14 of a mode's bank; a write of name r15 is not this operation and changes nothing. -/
def State.setBankedReg (s : State) (m : BitVec 5) (i : Reg) (v : Word) : State :=
  if i = 15 then s else { s with regs := s.regs.set (bankIndex m i) v }

/-- The instruction width in bytes: 4 in ARM state, 2 in Thumb state (R36). -/
def State.instrBytes (s : State) : Word := if s.cpsr.t then 2 else 4

/-- The width of a code access. -/
def State.codeWidth (s : State) : Width := if s.cpsr.t then .half else .word

/-- What an operand read of r15 gives: pc + 8 in ARM state, pc + 4 in Thumb state (R34). -/
def State.pcAhead (s : State) : Word := s.pc + (if s.cpsr.t then 4 else 8)

/-- What a store of r15 stores, and a register-shift form reads: pc + 12 in ARM state (R34), pc + 6 in Thumb state
(45_thumb_loadstore.md R495). -/
def State.pcFar (s : State) : Word := s.pc + (if s.cpsr.t then 6 else 12)

/-- An operand read in the current mode (R30, R34). -/
def State.readReg (s : State) (i : Reg) : Word := if i = 15 then s.pcAhead else s.bankedReg s.cpsr.m i

/-- An operand read that sees r15 as pc + 12: register-shift forms and stored registers (R34). -/
def State.readRegFar (s : State) (i : Reg) : Word := if i = 15 then s.pcFar else s.bankedReg s.cpsr.m i

/-- Write r0 to r14 of the current mode; r15 is written by `State.branchTo`. -/
def State.setReg (s : State) (i : Reg) (v : Word) : State := s.setBankedReg s.cpsr.m i v

/-- A Thumb low register as a register name. -/
def lowReg (r : LowReg) : Reg := Fin.ofNat 16 r.val

/-- Add cycles to the step. -/
def State.charge (s : State) (n : Nat) : State := { s with stepCycles := s.stepCycles + n }

/-- Charge one code access at pc: Sc or Nc (70_reset_and_hazards.md R880). -/
def State.chargeCode (s : State) (q : Access) : State := s.charge (accessCost s.dev s.codeWidth s.pc q)

/-- Charge one data access: Nd or Sd (R880). -/
def State.chargeData (s : State) (w : Width) (a : Word) (q : Access) : State := s.charge (accessCost s.dev w a q)

/-- Charge the refill after a branch: Nt at pc and St at pc + width (R880, R882). -/
def State.chargeRefill (s : State) : State :=
  s.charge (accessCost s.dev s.codeWidth s.pc .nonseq + accessCost s.dev s.codeWidth (s.pc + s.instrBytes) .seq)

/-- Go to the next instruction (R36). -/
def State.advance (s : State) : State := { s with pc := s.pc + s.instrBytes }

/-- Alignment of a branch target by the T bit (R35). -/
def alignPc (t : Bool) (v : Word) : Word := if t then v &&& 0xFFFFFFFE else v &&& 0xFFFFFFFC

/-- A write of r15: a branch to v, aligned per the T bit of s, with the refill charged (R35, R882). -/
def State.branchTo (s : State) (v : Word) : State := { s with pc := alignPc s.cpsr.t v }.chargeRefill

/-- Write a result to a register: a branch for r15, else the register and the next instruction. -/
def State.writeResult (s : State) (rd : Reg) (v : Word) : State :=
  if rd = 15 then s.branchTo v else (s.setReg rd v).advance

/-- What a data read by the CPU sees: BIOS reads from outside the BIOS give `bios_latch` (20_memory.md R114). -/
def State.dataView (s : State) : BusView :=
  { openLatch := s.prefetchLatch, biosLatch := if s.pc < 0x4000 then none else some s.biosLatch }

/-- What an instruction fetch sees: no BIOS protection (20_memory.md R102). -/
def State.fetchView (s : State) : BusView := { openLatch := s.prefetchLatch, biosLatch := none }

/-- MemRead by the executing instruction. -/
def State.load (s : State) (w : Width) (a : Word) : Word := busRead s.dev s.dataView w a

/-- MemWrite by the executing instruction. -/
def State.store (s : State) (w : Width) (a : Word) (v : Word) : State := { s with dev := busWrite s.dev w a v }

/-- Whether a condition passes on the flags (30_encoding.md R204). -/
def condPassed (c : Cond) (p : Psr) : Bool :=
  match c with
  | .eq => p.z
  | .ne => !p.z
  | .cs => p.c
  | .cc => !p.c
  | .mi => p.n
  | .pl => !p.n
  | .vs => p.v
  | .vc => !p.v
  | .hi => p.c && !p.z
  | .ls => !p.c || p.z
  | .ge => p.n == p.v
  | .lt => p.n != p.v
  | .gt => !p.z && (p.n == p.v)
  | .le => p.z || (p.n != p.v)
  | .al => true
  | .nv => false

/-- An instruction without effect: one S-cycle and the next instruction (30_encoding.md R205, R214). -/
def State.skip (s : State) : State := (s.chargeCode .seq).advance

/-- Run a meaning when its condition passes (30_encoding.md R205). -/
def whenCond (c : Cond) (s : State) (f : State → Result) : Result :=
  if condPassed c s.cpsr then f s else .next s.skip

/-- The bit of a flag at a place of the status word. -/
def flagBit (b : Bool) (i : Nat) : Word := if b then BitVec.ofNat 32 (2 ^ i) else 0

/-- A status register as the word MRS reads (10_state.md R37). -/
def psrWord (p : Psr) : Word :=
  flagBit p.n 31 ||| flagBit p.z 30 ||| flagBit p.c 29 ||| flagBit p.v 28 ||| flagBit p.i 7 ||| flagBit p.f 6 |||
    flagBit p.t 5 ||| p.m.zeroExtend 32

/-- The fields of a status word; bits 27:8 are ignored (R37). -/
def psrOfWord (w : Word) : Psr where
  n := w.getLsbD 31
  z := w.getLsbD 30
  c := w.getLsbD 29
  v := w.getLsbD 28
  i := w.getLsbD 7
  f := w.getLsbD 6
  t := w.getLsbD 5
  m := BitVec.ofNat 5 w.toNat

/-- The SPSR of a mode, `none` where the mode has none (R40, R43). -/
def State.spsrOf (s : State) (m : BitVec 5) : Option Psr :=
  if m = modeFiq then some s.spsrFiq
  else if m = modeIrq then some s.spsrIrq
  else if m = modeSvc then some s.spsrSvc
  else if m = modeAbt then some s.spsrAbt
  else if m = modeUnd then some s.spsrUnd
  else none

/-- Write the SPSR of a mode; a mode without one ignores it (R43). -/
def State.setSpsr (s : State) (m : BitVec 5) (p : Psr) : State :=
  if m = modeFiq then { s with spsrFiq := p }
  else if m = modeIrq then { s with spsrIrq := p }
  else if m = modeSvc then { s with spsrSvc := p }
  else if m = modeAbt then { s with spsrAbt := p }
  else if m = modeUnd then { s with spsrUnd := p }
  else s

/-- CPSR <- SPSR of the current mode, the return from an exception (R41); unchanged in User and System mode (R43), and
refused when the saved mode is not a mode (R42). -/
def State.psrRestore (s : State) : Result :=
  match s.spsrOf s.cpsr.m with
  | none => .next s
  | some p => if legalMode p.m then .next { s with cpsr := p } else .refused .invalidMode

/-- The exception entry sequence (60_exceptions.md R606) for an exception other than Reset and FIQ: mode m, vector v
and link value l. Its cycles are charged where it is taken. -/
def State.takeException (s : State) (m : BitVec 5) (v l : Word) : State :=
  { (({ s with cpsr := { s.cpsr with m := m, t := false, i := true } }.setSpsr m s.cpsr).setBankedReg m 14 l)
    with pc := v }

/-- Taking the Undefined or Software Interrupt trap: r14 is the address of the following instruction, and the cost is
Sc plus the refill at the vector (R607, R880); refused with the stub BIOS (R605). -/
def State.trap (s : State) (m : BitVec 5) (v : Word) : Result :=
  match s.dev.params.biosKind with
  | .stub => .refused .trapWithStubBios
  | .supplied =>
    let s1 := s.chargeCode .seq
    .next (s1.takeException m v (s1.pc + s1.instrBytes)).chargeRefill

/-- An undefined or unrecognized encoding whose condition passed (30_encoding.md R214, 60_exceptions.md R602). -/
def State.undefinedInstr (s : State) : Result :=
  match s.dev.params.undefPolicy with
  | .nop => .next s.skip
  | .trap => s.trap modeUnd 0x04

/-- The free bit of this draw, and the state that has drawn it. -/
def State.drawBit (s : State) : Bool × State := (Config.freeBit s.freeCount, { s with freeCount := s.freeCount + 1 })

/-- The free word of this draw, and the state that has drawn it. -/
def State.drawWord (s : State) : Word × State :=
  (Config.freeWord s.freeCount, { s with freeCount := s.freeCount + 1 })

end Sys2Proof.Machine
end

