-- ==== Sys2Proof/Machine/Render.lean ====
section
/-! DEFINITION. Rendering a line (spec/64_ppu.md R758 to R781): a pure function of the devices at dot 960 of the line
(R760). -/

namespace Sys2Proof.Machine

/-- The VRAM byte at an offset from 0x06000000, through the mirror (R761, R767). -/
def vramByte (d : Devices) (o : Nat) : Byte := cellRead d.mem (vramKey o)

/-- The VRAM halfword at an offset. -/
def vramHalf (d : Devices) (o : Nat) : Half := vramByte d (o + 1) ++ vramByte d o

/-- Colour i of palette RAM, 0-255 for BG and 256-511 for OBJ; bit 15 is ignored (R758). -/
def paletteColour (d : Devices) (i : Nat) : Pixel :=
  (cellRead d.mem (0x05000000 + 2 * i + 1) ++ cellRead d.mem (0x05000000 + 2 * i)) &&& 0x7FFF

/-- Bits lo+n-1 down to lo of a register. -/
def bitField (v : Half) (lo n : Nat) : Nat := v.toNat / 2 ^ lo % 2 ^ n

/-- A mosaic block's origin (R766). -/
def blockOrigin (v size : Nat) : Nat := v - v % (size + 1)

/-- The screen coordinate a BG samples horizontally (R766). -/
def bgMosaicX (d : Devices) (cnt : Half) (x : Nat) : Nat :=
  if cnt.getLsbD 6 then blockOrigin x (bitField d.ppu.mosaic 0 4) else x

/-- The screen coordinate a BG samples vertically (R766). -/
def bgMosaicY (d : Devices) (cnt : Half) (y : Nat) : Nat :=
  if cnt.getLsbD 6 then blockOrigin y (bitField d.ppu.mosaic 4 4) else y

/-- The colour of index c of a BG, transparent for 0 (R758). -/
def bgColour (d : Devices) (c : Nat) (bank : Nat) : Option Pixel :=
  if c = 0 then none else some (paletteColour d (16 * bank + c))

/-- The nibble of a byte for pixel px (R761 step 7). -/
def nibbleOf (b : Byte) (px : Nat) : Nat := if px % 2 = 0 then b.toNat % 16 else b.toNat / 16

/-- A text BG's pixel (R761). -/
def textPixel (d : Devices) (n : Fin 4) (x y : Nat) : Option Pixel :=
  let cnt := d.ppu.bgcnt[n]
  let size := bitField cnt 14 2
  let sx := (bgMosaicX d cnt x + bitField d.ppu.bghofs[n] 0 9) % (if size % 2 = 1 then 512 else 256)
  let sy := (bgMosaicY d cnt y + bitField d.ppu.bgvofs[n] 0 9) % (if 2 ≤ size then 512 else 256)
  let tx := sx / 8
  let ty := sy / 8
  let blk :=
    match size with
    | 0 => 0
    | 1 => tx / 32
    | 2 => ty / 32
    | _ => tx / 32 + 2 * (ty / 32)
  let e := vramHalf d (bitField cnt 8 5 * 0x800 + blk * 0x800 + (ty % 32 * 32 + tx % 32) * 2)
  let t := bitField e 0 10
  let px := if e.getLsbD 10 then 7 - sx % 8 else sx % 8
  let py := if e.getLsbD 11 then 7 - sy % 8 else sy % 8
  let base := bitField cnt 2 2 * 0x4000
  if cnt.getLsbD 7 then bgColour d (vramByte d (base + t * 64 + py * 8 + px)).toNat 0
  else bgColour d (nibbleOf (vramByte d (base + t * 32 + py * 4 + px / 2)) px) (bitField e 12 4)

/-- The texture coordinates of BG n + 2 at a pixel (R762 steps 1 to 3); the shift is arithmetic. -/
def affineCoord (d : Devices) (n : Fin 2) (cnt : Half) (x y : Nat) : Int × Int :=
  let xm : Int := bgMosaicX d cnt x
  let dy : Int := (y : Int) - bgMosaicY d cnt y
  let x0 := d.ppu.bgxInt[n].toInt - dy * d.ppu.bgpb[n].toInt
  let y0 := d.ppu.bgyInt[n].toInt - dy * d.ppu.bgpd[n].toInt
  ((x0 + d.ppu.bgpa[n].toInt * xm) / 256, (y0 + d.ppu.bgpc[n].toInt * xm) / 256)

/-- The BG register index of affine BG n + 2. -/
def affineBg (n : Fin 2) : Fin 4 := if n = 0 then 2 else 3

/-- An affine BG's pixel (R762). -/
def affinePixel (d : Devices) (n : Fin 2) (x y : Nat) : Option Pixel :=
  let cnt := d.ppu.bgcnt[affineBg n]
  let s : Nat := 128 * 2 ^ bitField cnt 14 2
  let t := affineCoord d n cnt x y
  let inside := decide (0 ≤ t.1 ∧ t.1 < s ∧ 0 ≤ t.2 ∧ t.2 < s)
  if !inside && !cnt.getLsbD 13 then none
  else
    let tx := (t.1 % (s : Int)).toNat
    let ty := (t.2 % (s : Int)).toNat
    let tile := (vramByte d (bitField cnt 8 5 * 0x800 + ty / 8 * (s / 8) + tx / 8)).toNat
    bgColour d (vramByte d (bitField cnt 2 2 * 0x4000 + tile * 64 + ty % 8 * 8 + tx % 8)).toNat 0

/-- BG2's pixel in a bitmap mode (R763). -/
def bitmapPixel (d : Devices) (mode : Nat) (x y : Nat) : Option Pixel :=
  let t := affineCoord d 0 d.ppu.bgcnt[2] x y
  let fb := if d.ppu.dispcnt.getLsbD 4 then 0xA000 else 0
  let w : Int := if mode = 5 then 160 else 240
  let h : Int := if mode = 5 then 128 else 160
  if 0 ≤ t.1 ∧ t.1 < w ∧ 0 ≤ t.2 ∧ t.2 < h then
    let tx := t.1.toNat
    let ty := t.2.toNat
    match mode with
    | 3 => some (vramHalf d ((ty * 240 + tx) * 2) &&& 0x7FFF)
    | 4 => bgColour d (vramByte d (fb + ty * 240 + tx)).toNat 0
    | _ => some (vramHalf d (fb + (ty * 160 + tx) * 2) &&& 0x7FFF)
  else none

/-- The BG mode (R745). -/
def bgMode (d : Devices) : Nat := bitField d.ppu.dispcnt 0 3

/-- The pixel of BG n by BG mode; a BG that the mode lacks draws nothing (R759, R779). -/
def bgPixelOf (d : Devices) (n : Fin 4) (x y : Nat) : Option Pixel :=
  match bgMode d, n.val with
  | 0, _ => textPixel d n x y
  | 1, 0 => textPixel d n x y
  | 1, 1 => textPixel d n x y
  | 1, 2 => affinePixel d 0 x y
  | 2, 2 => affinePixel d 0 x y
  | 2, 3 => affinePixel d 1 x y
  | 3, 2 => bitmapPixel d 3 x y
  | 4, 2 => bitmapPixel d 4 x y
  | 5, 2 => bitmapPixel d 5 x y
  | _, _ => none

/-- The pixel of an enabled BG (R759). -/
def bgPixel (d : Devices) (n : Fin 4) (x y : Nat) : Option Pixel :=
  if d.ppu.dispcnt.getLsbD (8 + n.val) then bgPixelOf d n x y else none

/-- An object's attributes, decoded (R768, R769). -/
structure Obj where
  y        : Nat
  affine   : Bool
  mode     : Nat
  mosaic   : Bool
  wide     : Bool
  x        : Int
  group    : Nat
  hflip    : Bool
  vflip    : Bool
  tile     : Nat
  priority : Nat
  bank     : Nat
  w        : Nat
  h        : Nat
  bw       : Nat
  bh       : Nat
  deriving DecidableEq, Repr

/-- The OAM halfword at an offset. -/
def oamHalf (d : Devices) (o : Nat) : Half := cellRead d.mem (0x07000000 + o + 1) ++ cellRead d.mem (0x07000000 + o)

/-- Width and height by shape and size (R769). -/
def objSize (shape size : Nat) : Nat × Nat :=
  match shape, size with
  | 0, 0 => (8, 8) | 0, 1 => (16, 16) | 0, 2 => (32, 32) | 0, _ => (64, 64)
  | 1, 0 => (16, 8) | 1, 1 => (32, 8) | 1, 2 => (32, 16) | 1, _ => (64, 32)
  | _, 0 => (8, 16) | _, 1 => (8, 32) | _, 2 => (16, 32) | _, _ => (32, 64)

/-- The 9-bit signed X coordinate (R768). -/
def objX (v : Nat) : Int := if 256 ≤ v then (v : Int) - 512 else v

/-- Object i, `none` when it is not displayed (R768, R770, R779). -/
def objOf (d : Devices) (i : Nat) : Option Obj :=
  let a0 := oamHalf d (8 * i)
  let a1 := oamHalf d (8 * i + 2)
  let a2 := oamHalf d (8 * i + 4)
  let affine := a0.getLsbD 8
  let mode := bitField a0 10 2
  let shape := bitField a0 14 2
  if !d.ppu.dispcnt.getLsbD 12 || (!affine && a0.getLsbD 9) || mode == 3 || shape == 3 then none
  else
    let sz := objSize shape (bitField a1 14 2)
    let k := if affine && a0.getLsbD 9 then 2 else 1
    some
      { y := bitField a0 0 8, affine := affine, mode := mode, mosaic := a0.getLsbD 12, wide := a0.getLsbD 13
        x := objX (bitField a1 0 9), group := bitField a1 9 5
        hflip := !affine && a1.getLsbD 12, vflip := !affine && a1.getLsbD 13
        tile := bitField a2 0 10, priority := bitField a2 10 2, bank := bitField a2 12 4
        w := sz.1, h := sz.2, bw := k * sz.1, bh := k * sz.2 }

/-- The tile unit of a tile column and row (R771 steps 2 to 4). -/
def objUnit (d : Devices) (o : Obj) (tc tr : Nat) : Nat :=
  let k := if o.wide then 2 else 1
  let u := if d.ppu.dispcnt.getLsbD 6 then o.tile + k * (tr * (o.w / 8) + tc) else o.tile + tr * 32 + k * tc
  u % 1024

/-- The colour of an object at a texture coordinate, `none` where transparent (R771, R781). -/
def objTexel (d : Devices) (o : Obj) (sx sy : Nat) : Option Pixel :=
  let u := objUnit d o (sx / 8) (sy / 8)
  let px := sx % 8
  let py := sy % 8
  let off := 0x10000 + (if o.wide then (u * 32 + py * 8 + px) % 0x8000 else u * 32 + py * 4 + px / 2)
  let b := vramByte d off
  let c := if o.wide then b.toNat else nibbleOf b px
  if c = 0 ∨ (3 ≤ bgMode d ∧ bgMode d ≤ 5 ∧ off < 0x14000) then none
  else some (paletteColour d (256 + (if o.wide then c else 16 * o.bank + c)))

/-- Affine parameter k (PA, PB, PC, PD) of group g, signed 8.8 (R768). -/
def objParam (d : Devices) (g k : Nat) : Int := (oamHalf d (8 * (4 * g + k) + 6)).toInt

/-- The texture coordinate of a box pixel: flips (R772), or the affine transform (R773). -/
def objTexture (d : Devices) (o : Obj) (lx ly : Nat) : Int × Int :=
  if o.affine then
    let dx : Int := (lx : Int) - (o.bw / 2 : Nat)
    let dy : Int := (ly : Int) - (o.bh / 2 : Nat)
    ((objParam d o.group 0 * dx + objParam d o.group 1 * dy) / 256 + (o.w / 2 : Nat),
     (objParam d o.group 2 * dx + objParam d o.group 3 * dy) / 256 + (o.h / 2 : Nat))
  else
    ((if o.hflip then (o.w : Int) - 1 - lx else lx), (if o.vflip then (o.h : Int) - 1 - ly else ly))

/-- An object's pixel at a screen point, `none` where it does not cover it or is transparent (R770 to R773). -/
def objAt (d : Devices) (o : Obj) (x y : Nat) : Option Pixel :=
  let ly := (y + 256 - o.y) % 256
  let lx := (x : Int) - o.x
  if ly < o.bh ∧ 0 ≤ lx ∧ lx < o.bw then
    let t := objTexture d o lx.toNat ly
    if 0 ≤ t.1 ∧ t.1 < o.w ∧ 0 ≤ t.2 ∧ t.2 < o.h then objTexel d o t.1.toNat t.2.toNat else none
  else none

/-- An object's pixel with OBJ mosaic: the block's origin is sampled instead (R766; notes/assumptions/18). -/
def objPixel (d : Devices) (o : Obj) (x y : Nat) : Option Pixel :=
  if o.mosaic then objAt d o (blockOrigin x (bitField d.ppu.mosaic 8 4)) (blockOrigin y (bitField d.ppu.mosaic 12 4))
  else objAt d o x y

/-- The displayed objects in OAM order. -/
def displayedObjs (d : Devices) : List Obj := (List.range 128).filterMap (objOf d)

/-- A layer's pixel: the layer number (0-3 BG, 4 OBJ, 5 backdrop), its colour, and whether it is a semi-transparent
object's (R774, R777). -/
structure Layer where
  number : Nat
  colour : Pixel
  semi   : Bool
  deriving DecidableEq, Repr

/-- The OBJ candidate and its priority: the lowest-numbered mode 0 or 1 object that is opaque here (R776). -/
def objCandidate (d : Devices) : List Obj → Nat → Nat → Option (Nat × Layer)
  | [], _, _ => none
  | o :: os, x, y =>
    if o.mode = 2 then objCandidate d os x y
    else
      match objPixel d o x y with
      | some c => some (o.priority, { number := 4, colour := c, semi := o.mode == 1 })
      | none => objCandidate d os x y

/-- Whether an OBJ window object is opaque here (R774). -/
def inObjWindow (d : Devices) (os : List Obj) (x y : Nat) : Bool :=
  os.any fun o => o.mode == 2 && (objPixel d o x y).isSome

/-- Whether a coordinate lies within a window's bounds on one axis (R754). -/
def inBounds (g : WindowGarbage) (lo hi size v : Nat) : Bool :=
  match g with
  | .clampToEdge => decide (lo ≤ v ∧ v < (if size < hi ∨ hi < lo then size else hi))
  | .wrap => if hi < lo then decide (lo ≤ v ∨ v < hi) else decide (lo ≤ v ∧ v < hi)

/-- Whether a pixel lies inside window n (R754). -/
def inWindow (d : Devices) (n : Fin 2) (x y : Nat) : Bool :=
  inBounds d.params.windowGarbage (bitField d.ppu.winh[n] 8 8) (bitField d.ppu.winh[n] 0 8) 240 x &&
  inBounds d.params.windowGarbage (bitField d.ppu.winv[n] 8 8) (bitField d.ppu.winv[n] 0 8) 160 y

/-- The control set of a pixel: bits 0-3 the BGs, 4 the OBJs, 5 the effects (R755, R775). -/
def windowControl (d : Devices) (objwin : Bool) (x y : Nat) : Nat :=
  let c := d.ppu.dispcnt
  if bitField c 13 3 = 0 then 0x3F
  else if c.getLsbD 13 && inWindow d 0 x y then bitField d.ppu.winin 0 6
  else if c.getLsbD 14 && inWindow d 1 x y then bitField d.ppu.winin 8 6
  else if c.getLsbD 15 && objwin then bitField d.ppu.winout 8 6
  else bitField d.ppu.winout 0 6

/-- Whether a control set has a bit. -/
def controlHas (ctl i : Nat) : Bool := Nat.testBit ctl i

/-- The BG candidate of priority p, as a list of none or one. -/
def bgCandidate (d : Devices) (ctl p : Nat) (x y : Nat) (n : Fin 4) : List Layer :=
  if controlHas ctl n.val && bitField d.ppu.bgcnt[n] 0 2 == p then
    match bgPixel d n x y with
    | some c => [{ number := n.val, colour := c, semi := false }]
    | none => []
  else []

/-- The candidates of priority p in order: the OBJ, then the BGs (R776). -/
def candidatesAt (d : Devices) (obj : Option (Nat × Layer)) (ctl : Nat) (x y p : Nat) : List Layer :=
  (match obj with
    | some (q, l) => if controlHas ctl 4 && q == p then [l] else []
    | none => []) ++
  (List.finRange 4).flatMap (bgCandidate d ctl p x y)

/-- The backdrop layer (R758, R776). -/
def backdrop (d : Devices) : Layer := { number := 5, colour := paletteColour d 0, semi := false }

/-- The top layer and the one below, the backdrop filling a missing place (R776). -/
def topTwo (d : Devices) (ls : List Layer) : Layer × Layer :=
  match ls with
  | [] => (backdrop d, backdrop d)
  | [a] => (a, backdrop d)
  | a :: b :: _ => (a, b)

/-- A pixel from three 5-bit channels. -/
def pixelOf (r g b : Nat) : Pixel := BitVec.ofNat 16 (r + g * 32 + b * 1024)

/-- Apply a function to each channel of two colours (R777). -/
def mixChannels (f : Nat → Nat → Nat) (a b : Pixel) : Pixel :=
  pixelOf (f (bitField a 0 5) (bitField b 0 5)) (f (bitField a 5 5) (bitField b 5 5))
    (f (bitField a 10 5) (bitField b 10 5))

/-- Alpha blending of two colours (R777). -/
def alphaBlend (d : Devices) (a b : Pixel) : Pixel :=
  let eva := min 16 (bitField d.ppu.bldalpha 0 5)
  let evb := min 16 (bitField d.ppu.bldalpha 8 5)
  mixChannels (fun p q => min 31 ((p * eva + q * evb) / 16)) a b

/-- Brightness increase (R777). -/
def brighten (d : Devices) (a : Pixel) : Pixel :=
  let evy := min 16 (bitField d.ppu.bldy 0 5)
  mixChannels (fun p _ => p + (31 - p) * evy / 16) a a

/-- Brightness decrease (R777). -/
def darken (d : Devices) (a : Pixel) : Pixel :=
  let evy := min 16 (bitField d.ppu.bldy 0 5)
  mixChannels (fun p _ => p - p * evy / 16) a a

/-- The colour effects on the two top layers (R777). -/
def colourEffect (d : Devices) (a b : Layer) : Pixel :=
  let first := d.ppu.bldcnt.getLsbD a.number
  let second := d.ppu.bldcnt.getLsbD (8 + b.number)
  if a.semi && second then alphaBlend d a.colour b.colour
  else
    match bitField d.ppu.bldcnt 6 2 with
    | 0 => a.colour
    | 1 => if first && second then alphaBlend d a.colour b.colour else a.colour
    | 2 => if first then brighten d a.colour else a.colour
    | _ => if first then darken d a.colour else a.colour

/-- The pixel (x, y) given the displayed objects and the line's OBJ window flag at x (R760 steps 1 to 4). -/
def composePixel (d : Devices) (os : List Obj) (objwin : Bool) (x y : Nat) : Pixel :=
  let ctl := windowControl d objwin x y
  let obj := objCandidate d os x y
  let ls := (List.range 4).flatMap (candidatesAt d obj ctl x y)
  let ab := topTwo d ls
  if controlHas ctl 5 then colourEffect d ab.1 ab.2 else ab.1.colour

/-- The OBJ window flags of line y (R774). -/
def lineObjwin (d : Devices) (y : Nat) : List Bool :=
  let os := displayedObjs d
  (List.range 240).map fun x => inObjWindow d os x y

/-- Line y (R760): white while forced blank is set (R778). -/
def renderRow (d : Devices) (y : Nat) : List Pixel :=
  if d.ppu.dispcnt.getLsbD 7 then List.replicate 240 0x7FFF
  else
    let os := displayedObjs d
    (List.range 240).map fun x => composePixel d os (inObjWindow d os x y) x y

end Sys2Proof.Machine
end

