-- ==== Sys2Proof/Machine/Ppu.lean ====
section
/-! DEFINITION. The pixel pipeline's clock: one dot, and its events (spec/64_ppu.md R741, R742, R744). -/

namespace Sys2Proof.Machine

/-- The internal points move by PB and PD after a line (R744), in 28 bits. -/
def advancePoints (p : Ppu) : Ppu :=
  { p with
    bgxInt := Vector.zipWith (fun v b => v + b.signExtend 28) p.bgxInt p.bgpb
    bgyInt := Vector.zipWith (fun v b => v + b.signExtend 28) p.bgyInt p.bgpd }

/-- Render the current line into `back` and move the points (R742 event 1.1, R744). Under forced blank objwin keeps the
flags of the line before (R778; notes/assumptions/20). -/
def renderLine (d : Devices) : Devices :=
  let y := d.ppu.line
  let p :=
    { d.ppu with
      back := d.ppu.back.set y (renderRow d y)
      objwin := if d.ppu.dispcnt.getLsbD 7 then d.ppu.objwin else lineObjwin d y }
  { d with ppu := advancePoints p }

/-- Set DISPSTAT's flag bits. -/
def setDispstat (d : Devices) (v : Half) : Devices := { d with ppu := { d.ppu with dispstat := v } }

/-- Raise an interrupt when a DISPSTAT enable bit is set. -/
def raiseIfEnabled (d : Devices) (enable irq : Nat) : Devices :=
  if d.ppu.dispstat.getLsbD enable then raiseIrq d irq else d

/-- Event 1 of R742: dot 960, the HBlank of a line. -/
def enterHBlank (d : Devices) : Devices :=
  let d1 := if d.ppu.line < 160 then renderLine d else d
  let d2 := raiseIfEnabled (setDispstat d1 (d1.ppu.dispstat ||| 2)) 4 1
  if d2.ppu.line < 160 then dmaFireAll d2 2 else d2

/-- Event 2.3 of R742: line 160, the VBlank. -/
def enterVBlank (d : Devices) : Devices :=
  let p := d.ppu
  let d1 := { d with ppu := { p with dispstat := p.dispstat ||| 1, front := p.back, bgxInt := p.bgx, bgyInt := p.bgy } }
  dmaFireAll (raiseIfEnabled d1 3 0) 1

/-- Event 2 of R742: dot 0 of line l. -/
def enterLine (d : Devices) (l : Nat) : Devices :=
  let hit := decide (l = d.ppu.dispstat.toNat / 0x100)
  let flags := (d.ppu.dispstat &&& 0xFFF9) ||| (if hit then 4 else 0)
  let d1 := { d with ppu := { d.ppu with dot := 0, line := l, dispstat := flags } }
  let d2 := if hit then raiseIfEnabled d1 5 2 else d1
  if l = 160 then enterVBlank d2
  else if l = 0 then setDispstat d2 (d2.ppu.dispstat &&& 0xFFFE)
  else d2

/-- One dot (R741). -/
def tickPpu (d : Devices) : Devices :=
  let dot := d.ppu.dot + 1
  if dot = 960 then enterHBlank { d with ppu := { d.ppu with dot := dot } }
  else if 1232 ≤ dot then enterLine d (if 228 ≤ d.ppu.line + 1 then 0 else d.ppu.line + 1)
  else { d with ppu := { d.ppu with dot := dot } }

end Sys2Proof.Machine
end

