-- ==== Sys2Proof/Machine/Advance.lean ====
section
/-! DEFINITION. Advancing the devices by cycles (70_reset_and_hazards.md R857), and the interrupt poll
(60_exceptions.md R624, R625). -/

namespace Sys2Proof.Machine

/-- One device cycle: the timers tick, the PPU ticks, and the transfers triggered run (R857); answers their cycles. -/
def deviceCycle (d : Devices) : Timed := serveDma (tickPpu (tickTimers d))

/-- One round of Advance: a device cycle, whose transfers add to the remaining cycles and to the extra ones, or done
(R857). -/
def advanceRound (t : Nat × Devices × Nat) : Except Fault (Round (Nat × Devices × Nat) (Devices × Nat)) :=
  match t with
  | (0, d, extra) => .ok (.done (d, extra))
  | (n + 1, d, extra) =>
    match deviceCycle d with
    | .error r => .error r
    | .ok u => .ok (.more (n + u.2, u.1, extra + u.2))

/-- Advance(c): c cycles one at a time, and the cycles of the transfers they trigger; answers the extra cycles (R857). The
rounds allowed grow with c, so that no c is too large. -/
def advanceLoop (c : Nat) (d : Devices) : Timed :=
  untilDone .deviceAdvanceNeverEnds advanceRound (Config.loopBound + c) 0 (c, d, 0)

/-- Devices after a timed loop, its cycles added to the step. -/
def State.afterTimed (s : State) (r : Timed) : Result :=
  match r with
  | .error e => .fault e
  | .ok t => .next { s with dev := t.1, stepCycles := s.stepCycles + t.2 }

/-- Advance the devices of a state, adding the extra cycles to the step (R856, R857). -/
def advanceDevices (c : Nat) (s : State) : Result := s.afterTimed (advanceLoop c s.dev)

/-- RunImmediateDMA: the transfers the instruction scheduled, before the advance (R856, 62_dma.md R706). -/
def runImmediateDma (s : State) : Result := s.afterTimed (serveDma s.dev)

/-- IE AND IF (R624). -/
def pendingIrqs (d : Devices) : Half := d.ie &&& d.iflag &&& 0x3FFF

/-- Whether the poll takes the IRQ (R624). -/
def irqTaken (s : State) : Bool :=
  s.dev.ime.getLsbD 0 && pendingIrqs s.dev != 0 && !s.cpsr.i && s.dev.run == .running

/-- The cycles of an IRQ entry, 3 by the table (70_reset_and_hazards.md R880, 92_eei_decisions.md D7). -/
def irqCycles (p : Params) : Nat :=
  match p.cycleCost with
  | .table => 3
  | .replaced => Config.irqCycles

/-- Poll(): take the IRQ if one is due, with its cycles, and with r14_irq = next + 4 (R607, R624, R625). -/
def pollInterrupts (s : State) : State :=
  if irqTaken s then (s.takeException modeIrq 0x18 (s.pc + 4)).charge (irqCycles s.dev.params) else s

/-- The poll, and the passing of its cycles: e <- Poll(); c <- c + e + Advance(e) (R856). -/
def pollAndAdvance (s : State) : Result := if irqTaken s then advanceDevices (irqCycles s.dev.params) (pollInterrupts s) else .next s

end Sys2Proof.Machine
end

