-- ==== Sys2Proof/Machine/Operands.lean ====
section
/-! DEFINITION. Every operand form: the shifter operand (30_encoding.md R206, R207), the addresses of single transfers
(42_arm_loadstore.md R360, R370) and of block transfers (R380, R383), and branch offsets. -/

namespace Sys2Proof.Machine

/-- The shifter operand and its carry-out (R206). -/
structure ShiftOut where
  value : Word
  carry : Bool
  deriving DecidableEq, Repr

/-- A word of ones if b, else zero. -/
def fillWord (b : Bool) : Word := if b then 0xFFFFFFFF else 0

/-- The immediate operand: eight bits rotated right by twice `rot` (R206). -/
def immOperand (rot : BitVec 4) (imm : BitVec 8) (c : Bool) : ShiftOut :=
  let v := (imm.zeroExtend 32 : Word).rotateRight (2 * rot.toNat)
  { value := v, carry := if rot = 0 then c else v.getLsbD 31 }

/-- A register shifted by an immediate amount; an amount of 0 encodes LSR #32, ASR #32 and RRX (R206). -/
def immShift (sh : ShiftType) (m : Word) (amt : BitVec 5) (c : Bool) : ShiftOut :=
  let n := amt.toNat
  match sh with
  | .lsl => if n = 0 then { value := m, carry := c } else { value := m <<< n, carry := m.getLsbD (32 - n) }
  | .lsr =>
    if n = 0 then { value := 0, carry := m.getLsbD 31 } else { value := m >>> n, carry := m.getLsbD (n - 1) }
  | .asr =>
    if n = 0 then { value := fillWord (m.getLsbD 31), carry := m.getLsbD 31 }
    else { value := m.sshiftRight n, carry := m.getLsbD (n - 1) }
  | .ror =>
    if n = 0 then { value := flagBit c 31 ||| (m >>> 1), carry := m.getLsbD 0 }
    else { value := m.rotateRight n, carry := m.getLsbD (n - 1) }

/-- RegShift: a register shifted by the bottom byte of another (R207). -/
def regShift (sh : ShiftType) (m : Word) (amount : Word) (c : Bool) : ShiftOut :=
  let n := amount.toNat % 256
  if n = 0 then { value := m, carry := c }
  else
    match sh with
    | .lsl =>
      if n < 32 then { value := m <<< n, carry := m.getLsbD (32 - n) }
      else if n = 32 then { value := 0, carry := m.getLsbD 0 }
      else { value := 0, carry := false }
    | .lsr =>
      if n < 32 then { value := m >>> n, carry := m.getLsbD (n - 1) }
      else if n = 32 then { value := 0, carry := m.getLsbD 31 }
      else { value := 0, carry := false }
    | .asr =>
      if n < 32 then { value := m.sshiftRight n, carry := m.getLsbD (n - 1) }
      else { value := fillWord (m.getLsbD 31), carry := m.getLsbD 31 }
    | .ror =>
      if n % 32 = 0 then { value := m, carry := m.getLsbD 31 }
      else { value := m.rotateRight (n % 32), carry := m.getLsbD (n % 32 - 1) }

/-- The offset of a mode 2 transfer (R360). -/
def offset2 (s : State) (o : Offset2) : Word :=
  match o with
  | .imm off => off.zeroExtend 32
  | .reg rm sh amt => (immShift sh (s.readReg rm) amt s.cpsr.c).value

/-- The offset of a mode 3 transfer (R370). -/
def offset3 (s : State) (o : Offset3) : Word :=
  match o with
  | .imm off => off.zeroExtend 32
  | .reg rm => s.readReg rm

/-- Base plus or minus offset (R360). -/
def offsetAddr (up : Bool) (base off : Word) : Word := if up then base + off else base - off

/-- An address, the base register, and the value written back to it, if any (R360, R370). -/
structure AddrOut where
  addr  : Word
  base  : Reg
  wback : Option Word
  deriving DecidableEq, Repr

/-- A pre-indexed mode 2 address (R360, P = 1). -/
def addr2Pre (s : State) (w : Bool) (m : Mode2) : AddrOut :=
  let a := offsetAddr m.up (s.readReg m.rn) (offset2 s m.off)
  { addr := a, base := m.rn, wback := if w then some a else none }

/-- A post-indexed mode 2 address (R360, P = 0). -/
def addr2Post (s : State) (m : Mode2) : AddrOut :=
  { addr := s.readReg m.rn, base := m.rn,
    wback := some (offsetAddr m.up (s.readReg m.rn) (offset2 s m.off)) }

/-- A mode 3 address: post-indexing always writes back, whatever W (R370). -/
def addr3 (s : State) (m : Mode3) : AddrOut :=
  let a := offsetAddr m.up (s.readReg m.rn) (offset3 s m.off)
  if m.pre then { addr := a, base := m.rn, wback := if m.wback then some a else none }
  else { addr := s.readReg m.rn, base := m.rn, wback := some a }

/-- The registers of a list, ascending (R380). -/
def listRegs (list : BitVec 16) : List Reg := (List.finRange 16).filter fun i => list.getLsbD i.val

/-- What a block transfer moves: the registers, the first address and the writeback value. -/
structure BlockOut where
  regs  : List Reg
  first : Word
  wback : Word
  deriving DecidableEq, Repr

/-- The addresses of LDM and STM by P and U (R380); an empty list moves r15 alone, as if n were 16 (R383). -/
def blockAddr (p u : Bool) (base : Word) (list : BitVec 16) : BlockOut :=
  let rs := listRegs list
  let n := if list = 0 then 16 else rs.length
  let size : Word := BitVec.ofNat 32 (4 * n)
  { regs := if list = 0 then [15] else rs
    first := if u then (if p then base + 4 else base) else (if p then base - size else base - size + 4)
    wback := if u then base + size else base - size }

/-- The 16-bit list of a Thumb low-register list, with one high register if `hi` (45_thumb_loadstore.md R491, R492). -/
def thumbList (list : BitVec 8) (hi : Bool) (i : Reg) : BitVec 16 :=
  (list.zeroExtend 16 : BitVec 16) ||| (if hi then BitVec.ofNat 16 (2 ^ i.val) else 0)

/-- A branch offset of n bits in units of `unit` bytes, sign-extended (43_arm_branch_system.md R400,
46_thumb_branch.md R500, R502, R503). -/
def branchOffset {n : Nat} (off : BitVec n) (unit : Nat) : Word := off.signExtend 32 * BitVec.ofNat 32 unit

/-- A word loaded from a misaligned address is rotated right by 8 bits a byte (R361). -/
def rotateLoaded (v a : Word) : Word := v.rotateRight (8 * (a.toNat % 4))

end Sys2Proof.Machine
end

