-- ==== Sys2Proof/Machine/Flags.lean ====
section
/-! DEFINITION. The results and the flags of data processing (40_arm_dataproc.md R302 to R318) and of multiplies
(41_arm_multiply.md R341 to R347). Carry and overflow compare the exact integer result with the word. -/

namespace Sys2Proof.Machine

/-- The sixteen operations (R303 to R318). -/
inductive AluOp where
  | and | eor | sub | rsb | add | adc | sbc | rsc | tst | teq | cmp | cmn | orr | mov | bic | mvn
  deriving DecidableEq, Repr

/-- A carry as a number. -/
def bitNat (b : Bool) : Nat := if b then 1 else 0

/-- a + b + cin (R302). -/
def addWith (a b : Word) (cin : Bool) : Word := a + b + BitVec.ofNat 32 (bitNat cin)

/-- x - y - bin (R302). -/
def subWith (x y : Word) (bin : Bool) : Word := x - y - BitVec.ofNat 32 (bitNat bin)

/-- The result of an operation on Rn and the shifter operand, with C as it was (R303 to R318). -/
def aluResult (op : AluOp) (a b : Word) (c : Bool) : Word :=
  match op with
  | .and => a &&& b
  | .eor => a ^^^ b
  | .sub => subWith a b false
  | .rsb => subWith b a false
  | .add => addWith a b false
  | .adc => addWith a b c
  | .sbc => subWith a b (!c)
  | .rsc => subWith b a (!c)
  | .tst => a &&& b
  | .teq => a ^^^ b
  | .cmp => subWith a b false
  | .cmn => addWith a b false
  | .orr => a ||| b
  | .mov => b
  | .bic => a &&& ~~~b
  | .mvn => ~~~b

/-- N and Z from a result. -/
def setNZ (p : Psr) (res : Word) : Psr := { p with n := res.getLsbD 31, z := decide (res = 0) }

/-- The flags of a logical operation: C from the shifter, V unchanged (R302). -/
def flagsLogical (p : Psr) (res : Word) (sc : Bool) : Psr := { setNZ p res with c := sc }

/-- The flags of an addition (R302). -/
def flagsAdd (p : Psr) (a b : Word) (cin : Bool) : Psr :=
  let res := addWith a b cin
  { setNZ p res with
    c := decide (2 ^ 32 ≤ a.toNat + b.toNat + bitNat cin)
    v := (a.getLsbD 31 == b.getLsbD 31) && (res.getLsbD 31 != a.getLsbD 31) }

/-- The flags of a subtraction: C is NOT borrow (R302). -/
def flagsSub (p : Psr) (x y : Word) (bin : Bool) : Psr :=
  let res := subWith x y bin
  { setNZ p res with
    c := decide (y.toNat + bitNat bin ≤ x.toNat)
    v := (x.getLsbD 31 != y.getLsbD 31) && (res.getLsbD 31 != x.getLsbD 31) }

/-- The flags of an operation (R302). -/
def aluFlags (op : AluOp) (a b : Word) (sc : Bool) (p : Psr) : Psr :=
  match op with
  | .and => flagsLogical p (a &&& b) sc
  | .eor => flagsLogical p (a ^^^ b) sc
  | .sub => flagsSub p a b false
  | .rsb => flagsSub p b a false
  | .add => flagsAdd p a b false
  | .adc => flagsAdd p a b p.c
  | .sbc => flagsSub p a b (!p.c)
  | .rsc => flagsSub p b a (!p.c)
  | .tst => flagsLogical p (a &&& b) sc
  | .teq => flagsLogical p (a ^^^ b) sc
  | .cmp => flagsSub p a b false
  | .cmn => flagsAdd p a b false
  | .orr => flagsLogical p (a ||| b) sc
  | .mov => flagsLogical p b sc
  | .bic => flagsLogical p (a &&& ~~~b) sc
  | .mvn => flagsLogical p (~~~b) sc

/-- Write the flags. -/
def State.setFlags (s : State) (p : Psr) : State := { s with cpsr := p }

/-- A flag a multiply leaves meaningless: a free bit, or as it was, by MUL_CARRY (41_arm_multiply.md R347). -/
def State.meaninglessFlag (s : State) (old : Bool) : Bool × State :=
  match s.dev.params.mulCarry with
  | .draw => s.drawBit
  | .executableDefault => (old, s)

/-- The flags of MUL and MLA with S = 1: N and Z from the result, C meaningless, V unchanged (R341, R347). -/
def State.mulFlags (s : State) (res : Word) : State :=
  let d := s.meaninglessFlag s.cpsr.c
  d.2.setFlags { setNZ s.cpsr res with c := d.1 }

/-- The flags of a long multiply with S = 1: N and Z from 64 bits, C and V meaningless (R343, R347). -/
def State.mulLongFlags (s : State) (p : BitVec 64) : State :=
  let dc := s.meaninglessFlag s.cpsr.c
  let dv := dc.2.meaninglessFlag s.cpsr.v
  dv.2.setFlags { s.cpsr with n := p.getLsbD 63, z := decide (p = 0), c := dc.1, v := dv.1 }

/-- The multiplier's cycles m, counting groups of zeros and of ones (70_reset_and_hazards.md R881). -/
def mulCyclesSigned (rs : Word) : Nat :=
  if rs.toInt / 2 ^ 8 = 0 ∨ rs.toInt / 2 ^ 8 = -1 then 1
  else if rs.toInt / 2 ^ 16 = 0 ∨ rs.toInt / 2 ^ 16 = -1 then 2
  else if rs.toInt / 2 ^ 24 = 0 ∨ rs.toInt / 2 ^ 24 = -1 then 3
  else 4

/-- The multiplier's cycles m, counting groups of zeros only (R881). -/
def mulCyclesUnsigned (rs : Word) : Nat :=
  if rs.toNat < 2 ^ 8 then 1 else if rs.toNat < 2 ^ 16 then 2 else if rs.toNat < 2 ^ 24 then 3 else 4

end Sys2Proof.Machine
end

