-- ==== Sys2Proof/Machine/Reset.lean ====
section
/-! DEFINITION. The system reset of any machine (70_reset_and_hazards.md R850 to R853): the host's Reset() and the
HardReset service. `State.reset` is its result with the default parameters. -/

namespace Sys2Proof.Machine

/-- Whether a canonical address lies in EWRAM, IWRAM, palette RAM, VRAM or OAM. -/
def isRamKey (a : Nat) : Bool := decide (0x02000000 ≤ a ∧ a < 0x08000000)

/-- Write the listed RAM bytes of MEM_INIT. -/
def writeMemInit : List Host.Cell → Memory → Memory
  | [], m => m
  | c :: cs, m => writeMemInit cs (if isRamKey c.1 then cellWrite m c.1 c.2 else m)

/-- Memory after reset: BIOS_IMAGE and ROM_IMAGE kept, RAM per MEM_INIT (R850). -/
def resetMemory (d : Devices) : Memory := writeMemInit d.params.memInit (d.mem.filter fun c => !isRamKey c.1)

/-- The devices after reset: every register at its reset value, the images and the backup store kept (R850, R851). -/
def resetDevices (d : Devices) : Devices :=
  { Devices.reset with
    params := d.params
    mem := resetMemory d
    romSize := d.romSize
    backup := d.backup
    fifoDraws := d.fifoDraws
    postflg := match d.params.bootMode with
      | .directBoot => 1
      | .fromFirmware => 0 }

/-- The host side after reset: the ring emptied, the watchdog history cleared, the rest kept (R850). -/
def resetDebug (g : Debug) : Debug := { g with ring := [], watchdogLast := none, watchdogEqual := 0 }

/-- What both boot modes reset alike. -/
def resetCommon (s : State) : State :=
  { s with
    prefetchLatch := 0, intrwaitMask := 0, cycleCount := 0, stale := [], dbg := resetDebug s.dbg
    dev := resetDevices s.dev }

/-- A reset with BOOT_MODE = DirectBoot (10_state.md R33, R39, R40). -/
def directBoot (s : State) : State :=
  { resetCommon s with
    regs := regsReset, pc := 0x08000000, cpsr := Psr.ofMode modeSys
    spsrFiq := Psr.ofMode 0, spsrIrq := Psr.ofMode 0, spsrSvc := Psr.ofMode 0, spsrAbt := Psr.ofMode 0
    spsrUnd := Psr.ofMode 0
    biosLatch := 0xE129F000 }

/-- A reset with BOOT_MODE = FromFirmware: what the architecture leaves unspecified is drawn (10_state.md R33, R39,
R40). -/
def firmwareBoot (s : State) : State :=
  let k := s.freeCount
  { resetCommon s with
    regs := Vector.ofFn fun i => Config.freeWord (k + i.val)
    pc := 0
    cpsr :=
      { n := Config.freeBit k, z := Config.freeBit (k + 1), c := Config.freeBit (k + 2), v := Config.freeBit (k + 3)
        i := true, f := true, t := false, m := modeSvc }
    spsrFiq := psrOfWord (Config.freeWord (k + 30))
    spsrIrq := psrOfWord (Config.freeWord (k + 31))
    spsrSvc := psrOfWord (Config.freeWord (k + 32))
    spsrAbt := psrOfWord (Config.freeWord (k + 33))
    spsrUnd := psrOfWord (Config.freeWord (k + 34))
    biosLatch := 0
    freeCount := k + 35 }

/-- Reset() (R850): FromFirmware is refused with the stub BIOS. -/
def resetMachine (s : State) : Result :=
  match s.dev.params.bootMode, s.dev.params.biosKind with
  | .directBoot, _ => .next (directBoot s)
  | .fromFirmware, .supplied => .next (firmwareBoot s)
  | .fromFirmware, .stub => .refused .firmwareBootWithStubBios

end Sys2Proof.Machine
end

