-- ==== Sys2Proof/Machine/Svc.lean ====
section
/-! DEFINITION. The bus accesses of an HLE service and how a service ends (spec/47_swi_hle.md R520, R556). -/

namespace Sys2Proof.Machine

/-- A service under way: the state, and the address that would continue the previous access (R556 with 20_memory.md
R131; notes/assumptions/15). -/
structure Svc where
  st   : State
  next : Option Word
  deriving DecidableEq, Repr

/-- A service that has made no access yet. -/
def Svc.start (s : State) : Svc := { st := s, next := none }

/-- Whether an access at a follows the previous one. -/
def Svc.access (v : Svc) (a : Word) : Access := if v.next = some a then .seq else .nonseq

/-- The state charged with one access, and the address after it. -/
def Svc.charged (v : Svc) (w : Width) (a : Word) : Svc :=
  { st := v.st.chargeData w a (v.access a), next := some (a + BitVec.ofNat 32 w.bytes) }

/-- MemRead by a service: the BIOS protection does not apply (R520). -/
def Svc.read (v : Svc) (w : Width) (a : Word) : Word × Svc :=
  (busRead v.st.dev v.st.fetchView w a, v.charged w a)

/-- MemWrite by a service. -/
def Svc.write (v : Svc) (w : Width) (a x : Word) : Svc :=
  let c := v.charged w a
  { c with st := c.st.store w a x }

/-- SourceOK: the address is not in 0x00000000-0x01FFFFFF of its 256 MiB (R520). -/
def sourceOk (a : Word) : Bool := a &&& 0x0E000000 != 0

/-- The return of a service: pc <- ret, `bios_latch` as the real BIOS leaves it, and the refill (R520, R556). -/
def svcReturn (ret : Word) (s : State) : Result :=
  .next { s with pc := ret, biosLatch := 0xE3A02004 }.chargeRefill

/-- A suspended service: pc stays on the SWI, and the refill is charged there (R527, R529, R556). -/
def svcStay (s : State) : Result := .next s.chargeRefill

/-- n 32-bit stores of a value from an address up. -/
def Svc.fillWords : Nat → Word → Word → Svc → Svc
  | 0, _, _, v => v
  | n + 1, a, x, v => Svc.fillWords n (a + 4) x (v.write .word a x)

/-- n 8-bit stores of zero from an address up. -/
def Svc.clearBytes : Nat → Word → Svc → Svc
  | 0, _, v => v
  | n + 1, a, v => Svc.clearBytes n (a + 1) (v.write .byte a 0)

end Sys2Proof.Machine
end

