-- ==== Sys2Proof/Machine/Services.lean ====
section
/-! DEFINITION. The HLE services for reset, waiting, arithmetic, copying and affine set-up (spec/47_swi_hle.md R522 to
R538), and the sound, link and system ones (R549 to R554). `ret` is the address of the instruction after the SWI. -/

namespace Sys2Proof.Machine

/-- Zero r0 to r(n-1) of the current mode. -/
def clearRegs : Nat → State → State
  | 0, s => s
  | n + 1, s => clearRegs n (s.setReg (Fin.ofNat 16 n) 0)

/-- The registers SoftReset leaves (R522 step 3). -/
def softResetRegs (s : State) : State :=
  let s1 := ((clearRegs 13 s).setBankedReg modeUsr 13 0x03007F00).setBankedReg modeIrq 13 0x03007FA0
  let s2 := ((s1.setBankedReg modeSvc 13 0x03007FE0).setBankedReg modeSvc 14 0).setBankedReg modeIrq 14 0
  (s2.setSpsr modeSvc (Psr.ofMode 0)).setSpsr modeIrq (Psr.ofMode 0)

/-- SoftReset (R522): its pc replaces the return; the area is cleared by 512 charged byte writes, and the refill is
priced at the new pc, in ARM state (notes/assumptions/36). -/
def svcSoftReset (s : State) : Result :=
  let f := (Svc.start s).read .byte 0x03007FFA
  let v := f.2.clearBytes 0x200 0x03007E00
  svcReturn (if f.1 = 0 then 0x08000000 else 0x02000000) ((softResetRegs v.st).setFlags (Psr.ofMode modeSys))

/-- Clear an area with 32-bit stores when bit i of r0 is set (R523). -/
def clearArea (flags : Word) (i : Nat) (base : Word) (words : Nat) (v : Svc) : Svc :=
  if flags.getLsbD i then v.fillWords words base 0 else v

/-- A channel or timer with all registers 0: R523 bit 7. -/
def clearedDma (c : DmaChannel) : DmaChannel := { c with sad := 0, dad := 0, cntL := 0, cntH := 0, pending := false }

/-- A timer with its registers 0, its hidden phase kept. -/
def clearedTimer (t : Timer) : Timer := { t with reload := 0, counter := 0, ctl := 0 }

/-- The PPU's registers at their reset values, its hidden state kept. -/
def clearedPpu (p : Ppu) : Ppu :=
  { Ppu.reset with
    dot := p.dot, bgxInt := p.bgxInt, bgyInt := p.bgyInt, back := p.back, front := p.front, objwin := p.objwin }

/-- Bit 7 of RegisterRamReset: every other I/O register but IE, IF, IME, POSTFLG, WAITCNT and KEYINPUT (R523;
notes/assumptions/14). -/
def clearOtherIo (d : Devices) : Devices :=
  { d with
    ppu := clearedPpu d.ppu, dma := d.dma.map clearedDma, timers := d.timers.map clearedTimer, keycnt := 0
    memctl := 0x0D000020 }

/-- The I/O halfwords of the serial registers (10_state.md R46). -/
def serialHalves : List Nat := List.range' 0x090 8 ++ List.range' 0x09A 0x13

/-- The I/O halfwords of the sound storage (10_state.md R46). -/
def soundHalves : List Nat := List.range' 0x030 0x20

/-- The I/O halfwords of the registers that bit 7 resets: the PPU, DMA, the timers, KEYCNT and the memory control
register (10_state.md R46). -/
def otherHalves : List Nat := List.range' 0 0x2C ++ List.range' 0x058 0x18 ++ List.range' 0x080 8 ++ [0x099, 0x400, 0x401]

/-- The register resets of bits 5, 6 and 7 (R523), stores by the service (notes/assumptions/9). -/
def clearRegisters (flags : Word) (d : Devices) : Devices :=
  let d1 := if flags.getLsbD 5 then notePort serialHalves { d with serial := Serial.reset } else d
  let d2 := if flags.getLsbD 6 then notePort soundHalves { d1 with sound := soundReset } else d1
  if flags.getLsbD 7 then notePort otherHalves (clearOtherIo d2) else d2

/-- RegisterRamReset (R523): DISPCNT is written by a charged 16-bit bus access (notes/assumptions/36). -/
def svcRegisterRamReset (ret : Word) (s : State) : Result :=
  let flags := s.readReg 0
  let v0 := (Svc.start s).write .half 0x04000000 0x0080
  let v1 := clearArea flags 1 0x03000000 0x1F80 (clearArea flags 0 0x02000000 0x10000 v0)
  let v2 := clearArea flags 3 0x06000000 0x6000 (clearArea flags 2 0x05000000 0x100 v1)
  let v3 := clearArea flags 4 0x07000000 0x100 v2
  svcReturn ret { v3.st with dev := clearRegisters flags v3.st.dev }

/-- Enter a halt (R524, R525; 60_exceptions.md R640). -/
def State.enterHalt (s : State) (k : HaltKind) : State := { s with dev := { s.dev with run := .halted k } }

/-- Halt (R524). -/
def svcHalt (ret : Word) (s : State) : Result := svcReturn ret (s.enterHalt .halt)

/-- Stop (R525). -/
def svcStop (ret : Word) (s : State) : Result := svcReturn ret (s.enterHalt .stop)

/-- The BIOS interrupt-flag halfword (R526). -/
def biosIf : Word := 0x03007FF8

/-- BIOS_IF <- BIOS_IF AND NOT x: one read and one write (R527). -/
def clearBiosIf (x : Half) (v : Svc) : Svc :=
  let r := v.read .half biosIf
  r.2.write .half biosIf (r.1 &&& ~~~(x.zeroExtend 32))

/-- The first execution of an IntrWait: IME <- 1, the discard, and the wait mask (R527). -/
def intrWaitFirst (discard : Bool) (mask : Half) (v : Svc) : Svc :=
  let v1 := { v with st := { v.st with dev := notePort [0x104] { v.st.dev with ime := 1 } } }
  let v2 := if discard then clearBiosIf mask v1 else v1
  { v2 with st := { v2.st with intrwaitMask := mask } }

/-- IntrWait with its two inputs (R527): it returns when BIOS_IF has a bit of the mask, and halts on the SWI else. -/
def intrWait (ret : Word) (discard : Bool) (mask : Half) (s : State) : Result :=
  let v := if s.intrwaitMask = 0 then intrWaitFirst discard mask (Svc.start s) else Svc.start s
  let r := v.read .half biosIf
  let m := loHalf r.1 &&& r.2.st.intrwaitMask
  if m = 0 then svcStay (r.2.st.enterHalt .halt)
  else
    let v2 := clearBiosIf m r.2
    svcReturn ret { v2.st with intrwaitMask := 0 }

/-- IntrWait (R526, R527). -/
def svcIntrWait (ret : Word) (s : State) : Result := intrWait ret (s.readReg 0 != 0) (loHalf (s.readReg 1)) s

/-- VBlankIntrWait (R528). -/
def svcVBlankIntrWait (ret : Word) (s : State) : Result := intrWait ret true 1 ((s.setReg 0 1).setReg 1 1)

/-- Division rounding toward zero, mod 2^32; by zero the service stays on its SWI (R529). -/
def divide (ret num den : Word) (s : State) : Result :=
  if den = 0 then svcStay s
  else
    let q := num.toInt.tdiv den.toInt
    let r := num.toInt - q * den.toInt
    svcReturn ret
      (((s.setReg 0 (BitVec.ofInt 32 q)).setReg 1 (BitVec.ofInt 32 r)).setReg 3 (BitVec.ofNat 32 q.natAbs))

/-- Div (R529). -/
def svcDiv (ret : Word) (s : State) : Result := divide ret (s.readReg 0) (s.readReg 1) s

/-- DivArm (R530). -/
def svcDivArm (ret : Word) (s : State) : Result := divide ret (s.readReg 1) (s.readReg 0) s

/-- The integer square root, bit by bit from bit n - 1 down: the largest r with r * r at most v (R531). -/
def isqrtFrom : Nat → Nat → Nat → Nat
  | 0, _, r => r
  | n + 1, v, r => isqrtFrom n v (if (r + 2 ^ n) * (r + 2 ^ n) ≤ v then r + 2 ^ n else r)

/-- Sqrt (R531). -/
def svcSqrt (ret : Word) (s : State) : Result :=
  svcReturn ret (s.setReg 0 (BitVec.ofNat 32 (isqrtFrom 16 (s.readReg 0).toNat 0)))

/-- One step of the BIOS polynomial: ((a * b) >> 14) + k in signed 32-bit arithmetic (R532). -/
def arcTanStep (a b k : Word) : Word := (a * b).sshiftRight 14 + k

/-- The BIOS polynomial, BIOS_ARCTAN's executable default (R532). -/
def arcTanPolynomial (t : Word) : Word :=
  let a := -((t * t).sshiftRight 14)
  let b1 := arcTanStep 0xA9 a 0x390
  let b2 := arcTanStep a b1 0x91C
  let b3 := arcTanStep a b2 0xFB6
  let b4 := arcTanStep a b3 0x16AA
  let b5 := arcTanStep a b4 0x2081
  let b6 := arcTanStep a b5 0x3651
  let b7 := arcTanStep a b6 0xA2F9
  (t * b7).sshiftRight 16

/-- BIOS_ARCTAN: any value in its range, or the polynomial (R532; notes/assumptions/4). -/
def arcTanOf (d : Devices) (t : Word) : Word :=
  match d.params.biosTables with
  | .draw => BitVec.ofInt 32 (((Config.biosArcTan t).val : Int) - 0x4000)
  | .executableDefault => arcTanPolynomial t

/-- ArcTan (R532). -/
def svcArcTan (ret : Word) (s : State) : Result := svcReturn ret (s.setReg 0 (arcTanOf s.dev (s.readReg 0)))

/-- The angle of (x, y): the fixed points of R533, and BIOS_ARCTAN elsewhere. -/
def arcTan2Of (x y : Half) : Half :=
  if y = 0 then (if 0 ≤ x.toInt then 0 else 0x8000)
  else if x = 0 then (if 0 < y.toInt then 0x4000 else 0xC000)
  else Config.biosArcTan2 x y

/-- ArcTan2 (R533). -/
def svcArcTan2 (ret : Word) (s : State) : Result :=
  svcReturn ret (s.setReg 0 ((arcTan2Of (loHalf (s.readReg 0)) (loHalf (s.readReg 1))).zeroExtend 32))

/-- n units copied upward, each a read and a write (R534). -/
def Svc.copyUnits : Nat → Width → Word → Word → Svc → Svc
  | 0, _, _, _, v => v
  | n + 1, w, src, dst, v =>
    let r := v.read w src
    Svc.copyUnits n w (src + BitVec.ofNat 32 w.bytes) (dst + BitVec.ofNat 32 w.bytes) (r.2.write w dst r.1)

/-- n units filled upward (R534). -/
def Svc.fillUnits : Nat → Width → Word → Word → Svc → Svc
  | 0, _, _, _, v => v
  | n + 1, w, dst, x, v => Svc.fillUnits n w (dst + BitVec.ofNat 32 w.bytes) x (v.write w dst x)

/-- Copy or fill n units from src to dst, if the source check holds at both ends (R534). -/
def cpuCopy (w : Width) (fill : Bool) (n : Nat) (src dst : Word) (ret : Word) (s : State) : Result :=
  let a := BitVec.ofNat 32 (alignTo w src.toNat)
  let b := BitVec.ofNat 32 (alignTo w dst.toNat)
  if !sourceOk a || !sourceOk (a + BitVec.ofNat 32 (n * w.bytes)) then svcReturn ret s
  else if fill then
    let r := (Svc.start s).read w a
    svcReturn ret (r.2.fillUnits n w b r.1).st
  else svcReturn ret ((Svc.start s).copyUnits n w a b).st

/-- CpuSet (R534). -/
def svcCpuSet (ret : Word) (s : State) : Result :=
  let c := s.readReg 2
  cpuCopy (if c.getLsbD 26 then .word else .half) (c.getLsbD 24) (c.toNat % 2 ^ 21) (s.readReg 0) (s.readReg 1) ret s

/-- CpuFastSet (R535): the count is rounded up to eight words. -/
def svcCpuFastSet (ret : Word) (s : State) : Result :=
  let c := s.readReg 2
  cpuCopy .word (c.getLsbD 24) ((c.toNat % 2 ^ 21 + 7) / 8 * 8) (s.readReg 0) (s.readReg 1) ret s

/-- GetBiosChecksum (R536). -/
def svcGetBiosChecksum (ret : Word) (s : State) : Result := svcReturn ret (s.setReg 0 0xBAAE187F)

/-- The first quarter of round(sin(2 pi k / 256) * 16384), k = 0 to 64 (R537). -/
def sineQuarter : List Int :=
    [0, 402, 804, 1205, 1606, 2006, 2404, 2801, 3196, 3590, 3981, 4370, 4756, 5139, 5520, 5897] ++
    [6270, 6639, 7005, 7366, 7723, 8076, 8423, 8765, 9102, 9434, 9760, 10080, 10394, 10702, 11003, 11297] ++
    [11585, 11866, 12140, 12406, 12665, 12916, 13160, 13395, 13623, 13842, 14053, 14256, 14449, 14635, 14811, 14978] ++
    [15137, 15286, 15426, 15557, 15679, 15791, 15893, 15986, 16069, 16143, 16207, 16261, 16305, 16340, 16364, 16379] ++
    [16384]

/-- BIOS_SIN_TABLE's executable default (R537). -/
def sineDefault (k : Nat) : Int :=
  if k < 64 then sineQuarter.getD k 0
  else if k < 128 then sineQuarter.getD (128 - k) 0
  else if k < 192 then -(sineQuarter.getD (k - 128) 0)
  else -(sineQuarter.getD (256 - k) 0)

/-- S(k): BIOS_SIN_TABLE, an OPEN function or its default (R537; notes/assumptions/4). -/
def biosSine (d : Devices) (k : Nat) : Int :=
  match d.params.biosTables with
  | .draw => (Config.biosSin (BitVec.ofNat 8 k)).toInt
  | .executableDefault => sineDefault (k % 256)

/-- pa, pb, pc, pd of a scale and an angle, before they are cut to the s16 that is written (R537; notes/assumptions/40). -/
structure AffineOut where
  pa : Int
  pb : Int
  pc : Int
  pd : Int
  deriving DecidableEq, Repr

/-- The matrix of sx, sy and an angle of which bits 15:8 count (R537). -/
def affineMatrix (d : Devices) (sx sy : Int) (angle : Nat) : AffineOut :=
  let k := angle / 256 % 256
  let sn := biosSine d k
  let cs := biosSine d (k + 64)
  { pa := sx * cs / 2 ^ 14, pb := -(sx * sn / 2 ^ 14), pc := sy * sn / 2 ^ 14, pd := sy * cs / 2 ^ 14 }

/-- A signed halfword. -/
def signedHalf (v : Word) : Int := (loHalf v).toInt

/-- A number as the word written for it. -/
def wordOfInt (i : Int) : Word := BitVec.ofInt 32 i

/-- One BgAffineSet entry: 20 bytes in, 16 bytes out (R537). x and y come from the matrix before it is cut to s16
(notes/assumptions/40). -/
def bgAffineEntry (src dst : Word) (v : Svc) : Svc :=
  let ox := v.read .word src
  let oy := ox.2.read .word (src + 4)
  let dx := oy.2.read .half (src + 8)
  let dy := dx.2.read .half (src + 10)
  let sx := dy.2.read .half (src + 12)
  let sy := sx.2.read .half (src + 14)
  let an := sy.2.read .half (src + 16)
  let m := affineMatrix v.st.dev (signedHalf sx.1) (signedHalf sy.1) an.1.toNat
  let x := ox.1.toInt - (m.pa * signedHalf dx.1 + m.pb * signedHalf dy.1)
  let y := oy.1.toInt - (m.pc * signedHalf dx.1 + m.pd * signedHalf dy.1)
  let w1 := (an.2.write .half dst (wordOfInt m.pa)).write .half (dst + 2) (wordOfInt m.pb)
  let w2 := (w1.write .half (dst + 4) (wordOfInt m.pc)).write .half (dst + 6) (wordOfInt m.pd)
  (w2.write .word (dst + 8) (wordOfInt x)).write .word (dst + 12) (wordOfInt y)

/-- BgAffineSet entries in order (R537). -/
def bgAffineLoop : Nat → Word → Word → Svc → Svc
  | 0, _, _, v => v
  | n + 1, src, dst, v => bgAffineLoop n (src + 20) (dst + 16) (bgAffineEntry src dst v)

/-- BgAffineSet (R537). -/
def svcBgAffineSet (ret : Word) (s : State) : Result :=
  svcReturn ret (bgAffineLoop (s.readReg 2).toNat (s.readReg 0) (s.readReg 1) (Svc.start s)).st

/-- One ObjAffineSet entry: 8 bytes in, four halfwords out at a stride (R538). -/
def objAffineEntry (src dst stride : Word) (v : Svc) : Svc :=
  let sx := v.read .half src
  let sy := sx.2.read .half (src + 2)
  let an := sy.2.read .half (src + 4)
  let m := affineMatrix v.st.dev (signedHalf sx.1) (signedHalf sy.1) an.1.toNat
  let w1 := (an.2.write .half dst (wordOfInt m.pa)).write .half (dst + stride) (wordOfInt m.pb)
  (w1.write .half (dst + 2 * stride) (wordOfInt m.pc)).write .half (dst + 3 * stride) (wordOfInt m.pd)

/-- ObjAffineSet entries in order (R538). -/
def objAffineLoop : Nat → Word → Word → Word → Svc → Svc
  | 0, _, _, _, v => v
  | n + 1, src, dst, stride, v =>
    objAffineLoop n (src + 8) (dst + 4 * stride) stride (objAffineEntry src dst stride v)

/-- ObjAffineSet (R538). -/
def svcObjAffineSet (ret : Word) (s : State) : Result :=
  svcReturn ret
    (objAffineLoop (s.readReg 2).toNat (s.readReg 0) (s.readReg 1) (s.readReg 3) (Svc.start s)).st

/-- SoundBias (R549): SOUNDBIAS bits 9:0, set directly at no cost (notes/assumptions/36). -/
def svcSoundBias (ret : Word) (s : State) : Result :=
  let level : Half := if s.readReg 0 = 0 then 0 else 0x200
  let sound := s.dev.sound.set 20 ((s.dev.sound[20] &&& 0xFC00) ||| level)
  svcReturn ret { s with dev := notePort [0x044] { s.dev with sound := sound } }

/-- MemWrite of a drawn value: no bit of IF is cleared, for no HLE service clears IF (60_exceptions.md R626,
92_eei_decisions.md D56). -/
def Svc.openWrite (v : Svc) (w : Width) (a x : Word) : Svc :=
  let u := v.write w a x
  { u with st := { u.st with dev := { u.st.dev with iflag := u.st.dev.iflag ||| v.st.dev.iflag } } }

/-- One access of a service whose effect is OPEN: a charged write, or a read that is only charged. -/
def Svc.openAccess (v : Svc) (a : OpenAccess) : Svc :=
  let w : Width := match a.size with
    | 0 => .byte
    | 1 => .half
    | 2 => .word
  if a.write then v.openWrite w a.addr a.value else (v.read w a.addr).2

/-- Write drawn values to registers r0 to r14. -/
def writeOpenRegs : List (Fin 15 × Word) → State → State
  | [], s => s
  | x :: xs, s => writeOpenRegs xs (s.setReg (x.1.castLE (by decide)) x.2)

/-- A service whose effect is OPEN: any bus accesses, which clear no bit of IF, and any values of r0 to r14 of the
caller's bank, and the return of R520 (notes/assumptions/5). -/
def svcOpen (ret : Word) (s : State) : Result :=
  let v := (Config.openAccesses s.freeCount).foldl Svc.openAccess (Svc.start s)
  svcReturn ret { writeOpenRegs (Config.openRegs s.freeCount) v.st with freeCount := s.freeCount + 1 }

/-- The sound-driver and music-player services: BIOS_SOUND, OPEN, or its executable default, no effect (R550). -/
def svcSound (ret : Word) (s : State) : Result :=
  match s.dev.params.biosSound with
  | .draw => svcOpen ret s
  | .executableDefault => svcReturn ret s

/-- MidiKey2Freq (R551): BIOS_MIDIKEY2FREQ of the wave word, the key and the fine adjustment (notes/assumptions/4). -/
def svcMidiKey2Freq (ret : Word) (s : State) : Result :=
  let r := (Svc.start s).read .word (s.readReg 0 + 4)
  svcReturn ret (r.2.st.setReg 0 (Config.biosMidiKey2Freq r.1 (s.readReg 1) (s.readReg 2)))

/-- MultiBoot: BIOS_MULTIBOOT, OPEN, or its executable default, r0 <- 1, failure (R552). -/
def svcMultiBoot (ret : Word) (s : State) : Result :=
  match s.dev.params.biosMultiBoot with
  | .draw => svcOpen ret s
  | .executableDefault => svcReturn ret (s.setReg 0 1)

/-- HardReset (R553): the system reset, then the refill at its pc, with the wait states after the reset
(notes/assumptions/36). -/
def svcHardReset (s : State) : Result := andThen (resetMachine s) fun s1 => .next s1.chargeRefill

/-- CustomHalt (R554): r2[7:0] to HALTCNT, by a charged 8-bit bus write (notes/assumptions/36). -/
def svcCustomHalt (ret : Word) (s : State) : Result :=
  svcReturn ret ((Svc.start s).write .byte 0x04000301 (s.readReg 2)).st

/-- An unlisted service number has no effect (R555). -/
def svcNone (ret : Word) (s : State) : Result := svcReturn ret s

end Sys2Proof.Machine
end

