-- ==== Sys2Proof/Machine/Decompress.lean ====
section
/-! DEFINITION. The HLE services that unpack and decompress (spec/47_swi_hle.md R539 to R548). Compressed data is read
with byte reads (R540; notes/assumptions/19); each loop runs on fuel that its size bounds, but for a walk of the Huffman
tree, which its states bound. -/

namespace Sys2Proof.Machine

/-- What BitUnPack is told by its info block (R539). -/
structure UnpackInfo where
  sw    : Nat
  dw    : Nat
  ofs   : Word
  deriving DecidableEq, Repr

/-- BitUnPack under way: the word being gathered, how many bits it has, and where it goes (R539). -/
structure UnpackState where
  svc  : Svc
  dst  : Word
  buf  : Word
  bits : Nat
  deriving DecidableEq, Repr

/-- A source unit with the offset added where it applies (R539). -/
def unpackValue (i : UnpackInfo) (v : Nat) : Word :=
  if v != 0 || i.ofs.getLsbD 31 then BitVec.ofNat 32 v + (i.ofs &&& 0x7FFFFFFF) else BitVec.ofNat 32 v

/-- Gather one unit, truncated to dw bits; a full word is written (R539). -/
def unpackUnit (i : UnpackInfo) (x : Word) (u : UnpackState) : UnpackState :=
  let buf := u.buf ||| ((x &&& BitVec.ofNat 32 (2 ^ i.dw - 1)) <<< u.bits)
  let bits := u.bits + i.dw
  if bits = 32 then { svc := u.svc.write .word u.dst buf, dst := u.dst + 4, buf := 0, bits := 0 }
  else { u with buf := buf, bits := bits }

/-- The units of one source byte from bit 0 up (R539). -/
def unpackByte (i : UnpackInfo) : Nat → Nat → UnpackState → UnpackState
  | 0, _, u => u
  | n + 1, b, u => unpackByte i n (b / 2 ^ i.sw) (unpackUnit i (unpackValue i (b % 2 ^ i.sw)) u)

/-- The source bytes in order, each of as many whole units as it holds: the bits left over, under a width that does not
divide 8, are dropped (R539; notes/assumptions/16). -/
def unpackLoop (i : UnpackInfo) : Nat → Word → UnpackState → UnpackState
  | 0, _, u => u
  | n + 1, src, u =>
    let r := u.svc.read .byte src
    unpackLoop i n (src + 1) (unpackByte i (8 / i.sw) r.1.toNat { u with svc := r.2 })

/-- BitUnPack (R539). -/
def svcBitUnPack (ret : Word) (s : State) : Result :=
  if !sourceOk (s.readReg 0) then svcReturn ret s
  else
    let info := s.readReg 2
    let len := (Svc.start s).read .half info
    let sw := len.2.read .byte (info + 2)
    let dw := sw.2.read .byte (info + 3)
    let ofs := dw.2.read .word (info + 4)
    let i : UnpackInfo := { sw := sw.1.toNat, dw := dw.1.toNat, ofs := ofs.1 }
    svcReturn ret
      (unpackLoop i len.1.toNat (s.readReg 0) { svc := ofs.2, dst := s.readReg 1, buf := 0, bits := 0 }).svc.st

/-- A decompression under way: where it reads and writes, how many bytes it has produced, and the byte waiting for the
other half of a halfword in a Vram variant (R540). -/
structure Unzip where
  svc      : Svc
  src      : Word
  out      : Word
  produced : Nat
  pend     : Option Byte
  deriving DecidableEq, Repr

/-- The next byte of compressed data. -/
def Unzip.nextByte (u : Unzip) : Byte × Unzip :=
  let r := u.svc.read .byte u.src
  (r.1.setWidth 8, { u with svc := r.2, src := u.src + 1 })

/-- Produce a byte: an 8-bit write, or in a Vram variant half of a 16-bit write (R540). -/
def Unzip.emit (u : Unzip) (vram : Bool) (b : Byte) : Unzip :=
  if vram then
    match u.pend with
    | none => { u with out := u.out + 1, produced := u.produced + 1, pend := some b }
    | some lo =>
      { u with
        svc := u.svc.write .half (u.out - 1) (wordOfBytes 0 0 b lo), out := u.out + 1, produced := u.produced + 1
        pend := none }
  else { u with svc := u.svc.write .byte u.out (b.zeroExtend 32), out := u.out + 1, produced := u.produced + 1 }

/-- Copy n bytes from disp before the output, through the bus, while output is wanted (R541, R542). -/
def lzCopy (vram : Bool) (size : Nat) (disp : Word) : Nat → Unzip → Unzip
  | 0, u => u
  | n + 1, u =>
    if u.produced < size then
      let r := u.svc.read .byte (u.out - disp)
      lzCopy vram size disp n ({ u with svc := r.2 }.emit vram (r.1.setWidth 8))
    else u

/-- One block of LZ77: a literal byte or a back-reference (R541). -/
def lzBlock (vram : Bool) (size : Nat) (isRef : Bool) (u : Unzip) : Unzip :=
  let b1 := u.nextByte
  if isRef then
    let b2 := b1.2.nextByte
    let disp : Nat := b1.1.toNat % 16 * 256 + b2.1.toNat + 1
    lzCopy vram size (BitVec.ofNat 32 disp) (b1.1.toNat / 16 + 3) b2.2
  else b1.2.emit vram b1.1

/-- LZ77 blocks while output is wanted: `k` flags of `flags` remain, taken from bit k - 1; every block produces a byte,
so `fuel` = size suffices (R541). -/
def lzLoop (vram : Bool) (size : Nat) : Nat → Nat → Byte → Unzip → Unzip
  | 0, _, _, u => u
  | fuel + 1, k, flags, u =>
    if u.produced < size then
      match k with
      | 0 =>
        let f := u.nextByte
        lzLoop vram size fuel 7 f.1 (lzBlock vram size (f.1.getLsbD 7) f.2)
      | j + 1 => lzLoop vram size fuel j flags (lzBlock vram size (flags.getLsbD j) u)
    else u

/-- Produce a byte n times while output is wanted (R544). -/
def rlFill (vram : Bool) (size : Nat) (b : Byte) : Nat → Unzip → Unzip
  | 0, u => u
  | n + 1, u => if u.produced < size then rlFill vram size b n (u.emit vram b) else u

/-- Copy the next n bytes while output is wanted (R544). -/
def rlCopy (vram : Bool) (size : Nat) : Nat → Unzip → Unzip
  | 0, u => u
  | n + 1, u =>
    if u.produced < size then
      let b := u.nextByte
      rlCopy vram size n (b.2.emit vram b.1)
    else u

/-- Run-length blocks while output is wanted; every block produces a byte (R544). -/
def rlLoop (vram : Bool) (size : Nat) : Nat → Unzip → Unzip
  | 0, u => u
  | fuel + 1, u =>
    if u.produced < size then
      let f := u.nextByte
      if f.1.getLsbD 7 then
        let b := f.2.nextByte
        rlLoop vram size fuel (rlFill vram size b.1 (f.1.toNat % 128 + 3) b.2)
      else rlLoop vram size fuel (rlCopy vram size (f.1.toNat % 128 + 1) f.2)
    else u

/-- Difference filter of bytes: each output is the previous one plus the input (R546). -/
def diff8Loop (vram : Bool) : Nat → Byte → Unzip → Unzip
  | 0, _, u => u
  | n + 1, prev, u =>
    let b := u.nextByte
    diff8Loop vram n (prev + b.1) (b.2.emit vram (prev + b.1))

/-- Difference filter of halfwords (R548). -/
def diff16Loop : Nat → Half → Unzip → Unzip
  | 0, _, u => u
  | n + 1, prev, u =>
    let lo := u.nextByte
    let hi := lo.2.nextByte
    let x : Half := prev + (hi.1 ++ lo.1)
    diff16Loop n x { hi.2 with svc := hi.2.svc.write .half hi.2.out (x.zeroExtend 32), out := hi.2.out + 2 }

/-- A decompression service: the source check, the header, and a body given the size (R540). -/
def decompress (body : Nat → Unzip → Unzip) (ret : Word) (s : State) : Result :=
  if !sourceOk (s.readReg 0) then svcReturn ret s
  else
    let h := (Svc.start s).read .word (s.readReg 0)
    let u : Unzip := { svc := h.2, src := s.readReg 0 + 4, out := s.readReg 1, produced := 0, pend := none }
    svcReturn ret (body (h.1.toNat / 256) u).svc.st

/-- LZ77UnCompWram (R541). -/
def svcLz77Wram (ret : Word) (s : State) : Result :=
  decompress (fun size u => lzLoop false size size 0 0 u) ret s

/-- LZ77UnCompVram (R542). -/
def svcLz77Vram (ret : Word) (s : State) : Result :=
  decompress (fun size u => lzLoop true size size 0 0 u) ret s

/-- RLUnCompWram (R544). -/
def svcRlWram (ret : Word) (s : State) : Result := decompress (fun size u => rlLoop false size size u) ret s

/-- RLUnCompVram (R545). -/
def svcRlVram (ret : Word) (s : State) : Result := decompress (fun size u => rlLoop true size size u) ret s

/-- Diff8bitUnFilterWram (R546), by bytes whatever the header's unit field says (notes/assumptions/39). -/
def svcDiff8Wram (ret : Word) (s : State) : Result := decompress (fun size u => diff8Loop false size 0 u) ret s

/-- Diff8bitUnFilterVram (R547), by bytes whatever the header's unit field says (notes/assumptions/39). -/
def svcDiff8Vram (ret : Word) (s : State) : Result := decompress (fun size u => diff8Loop true size 0 u) ret s

/-- Diff16bitUnFilter (R548), by halfwords whatever the header's unit field says (notes/assumptions/39). -/
def svcDiff16 (ret : Word) (s : State) : Result := decompress (fun size u => diff16Loop (size / 2) 0 u) ret s

/-- HuffUnComp under way: the bit stream, the node, and the word being gathered (R543). -/
structure Huff where
  svc     : Svc
  stream  : Word
  word    : Word
  left    : Nat
  node    : Word
  out     : Word
  buf     : Word
  bits    : Nat
  written : Nat
  deriving DecidableEq, Repr

/-- The next word of the bit stream, as four byte reads (R540, R543). -/
def Huff.refill (h : Huff) : Huff :=
  let b0 := h.svc.read .byte h.stream
  let b1 := b0.2.read .byte (h.stream + 1)
  let b2 := b1.2.read .byte (h.stream + 2)
  let b3 := b2.2.read .byte (h.stream + 3)
  { h with
    svc := b3.2, stream := h.stream + 4, left := 32
    word := wordOfBytes (b3.1.setWidth 8) (b2.1.setWidth 8) (b1.1.setWidth 8) (b0.1.setWidth 8) }

/-- A free word drawn inside a service. -/
def Svc.draw (v : Svc) : Word × Svc := (v.st.drawWord.1, { v with st := v.st.drawWord.2 })

/-- Whether a data size is one of the two the rule gives (R543). -/
def huffSizeGiven (bitsz : Nat) : Bool := bitsz == 4 || bitsz == 8

/-- Emit a data value: packed from bit 0 up, and the word written when full. With a data size the rule does not give, the
word written is a free one; a size of 0 fills it by a bit a value (R543; notes/assumptions/16). -/
def Huff.emit (h : Huff) (bitsz : Nat) (v : Nat) : Huff :=
  let buf := h.buf ||| (BitVec.ofNat 32 (v % 2 ^ bitsz) <<< h.bits)
  let bits := h.bits + max bitsz 1
  if bits < 32 then { h with buf := buf, bits := bits }
  else
    let x := if huffSizeGiven bitsz then (buf, h.svc) else h.svc.draw
    { h with
      svc := x.2.write .word h.out x.1, out := h.out + 4, buf := 0, bits := bits - 32, written := h.written + 4 }

/-- One bit: whether the child it moves to is a data value, and the service there. The node's byte is read anew for each
bit (R543; notes/assumptions/36). -/
def Huff.bit (h : Huff) : Bool × Huff :=
  let h1 := if h.left = 0 then h.refill else h
  let n := h1.svc.read .byte h1.node
  let one := h1.word.getLsbD 31
  let c0 := (h1.node &&& 0xFFFFFFFE) + 2 * (n.1 &&& 0x3F) + 2
  (if one then n.1.getLsbD 6 else n.1.getLsbD 7,
    { h1 with svc := n.2, word := h1.word <<< 1, left := h1.left - 1, node := if one then c0 + 1 else c0 })

/-- One round of a walk: a bit, and the data child's byte where the child it moves to is one (R543). -/
def Huff.round (h : Huff) : Except Fault (Round Huff (Word × Huff)) :=
  let b := h.bit
  if b.1 then
    let v := b.2.svc.read .byte b.2.node
    .ok (.done (v.1, { b.2 with svc := v.2 }))
  else .ok (.more b.2)

/-- Walk from a node to a data value, bit by bit: the value is the data child's byte. 2 ^ 102 bits reach every walk that
ends, for a walk has fewer states; one that they do not end goes round for ever, and its value, which the spec does not
state, is a free one (R543; notes/assumptions/16). -/
def Huff.walk (h : Huff) : Word × Huff :=
  match rounds Huff.round 102 h with
  | .ok (.done v) => v
  | .ok (.more h1) => (h1.svc.draw.1, { h1 with svc := h1.svc.draw.2 })
  | .error _ => (h.svc.draw.1, { h with svc := h.svc.draw.2 })

/-- Values until size bytes are written: each walk starts at the root. A size that is no multiple of 4 is written up to the
whole last word (notes/assumptions/16). At most 32 values fill a word, so `fuel` = 8 * size + 32 suffices (R543). -/
def huffLoop (root : Word) (bitsz size : Nat) : Nat → Huff → Huff
  | 0, h => h
  | fuel + 1, h =>
    if size ≤ h.written then h
    else
      let v := Huff.walk { h with node := root }
      huffLoop root bitsz size fuel (v.2.emit bitsz v.1.toNat)

/-- HuffUnComp (R543). -/
def svcHuff (ret : Word) (s : State) : Result :=
  if !sourceOk (s.readReg 0) then svcReturn ret s
  else
    let src := s.readReg 0
    let hdr := (Svc.start s).read .word src
    let ts := hdr.2.read .byte (src + 4)
    let size := hdr.1.toNat / 256
    let h : Huff :=
      { svc := ts.2, stream := src + 4 + (ts.1 + 1) * 2, word := 0, left := 0, node := src + 5
        out := s.readReg 1, buf := 0, bits := 0, written := 0 }
    svcReturn ret (huffLoop (src + 5) (hdr.1.toNat % 16) size (8 * size + 32) h).svc.st

end Sys2Proof.Machine
end

