-- ==== Sys2Proof/Machine/Swi.lean ====
section
/-! DEFINITION. Software interrupts: HLE dispatch (spec/47_swi_hle.md R520, R521, R555) or the trap, by SWI_MODE
(43_arm_branch_system.md R404, 46_thumb_branch.md R501). -/

namespace Sys2Proof.Machine

/-- The services of R521; every other number has no effect (R555). -/
def runService (n : Nat) (ret : Word) (s : State) : Result :=
  match n with
  | 0x00 => svcSoftReset s
  | 0x01 => svcRegisterRamReset ret s
  | 0x02 => svcHalt ret s
  | 0x03 => svcStop ret s
  | 0x04 => svcIntrWait ret s
  | 0x05 => svcVBlankIntrWait ret s
  | 0x06 => svcDiv ret s
  | 0x07 => svcDivArm ret s
  | 0x08 => svcSqrt ret s
  | 0x09 => svcArcTan ret s
  | 0x0A => svcArcTan2 ret s
  | 0x0B => svcCpuSet ret s
  | 0x0C => svcCpuFastSet ret s
  | 0x0D => svcGetBiosChecksum ret s
  | 0x0E => svcBgAffineSet ret s
  | 0x0F => svcObjAffineSet ret s
  | 0x10 => svcBitUnPack ret s
  | 0x11 => svcLz77Wram ret s
  | 0x12 => svcLz77Vram ret s
  | 0x13 => svcHuff ret s
  | 0x14 => svcRlWram ret s
  | 0x15 => svcRlVram ret s
  | 0x16 => svcDiff8Wram ret s
  | 0x17 => svcDiff8Vram ret s
  | 0x18 => svcDiff16 ret s
  | 0x19 => svcSoundBias ret s
  | 0x1A | 0x1B | 0x1C | 0x1D | 0x1E => svcSound ret s
  | 0x1F => svcMidiKey2Freq ret s
  | 0x20 | 0x21 | 0x22 | 0x23 | 0x24 => svcSound ret s
  | 0x25 => svcMultiBoot ret s
  | 0x26 => svcHardReset s
  | 0x27 => svcCustomHalt ret s
  | 0x28 | 0x29 | 0x2A => svcSound ret s
  | _ => svcNone ret s

/-- The state a service starts from: Sc charged, r14_svc and SPSR_svc written as the entry would (R520, R556). -/
def hleEnter (ret : Word) (s : State) : State :=
  ((s.chargeCode .seq).setBankedReg modeSvc 14 ret).setSpsr modeSvc s.cpsr

/-- Run service n by HLE (R520). -/
def hleCall (n : Nat) (s : State) : Result :=
  let ret := s.pc + s.instrBytes
  runService n ret (hleEnter ret s)

/-- An SWI with service number n, by SWI_MODE (R404, R501). -/
def softwareInterrupt (n : Nat) (s : State) : Result :=
  match s.dev.params.swiMode with
  | .hle => hleCall n s
  | .trap => s.trap modeSvc 0x08

/-- ARM SWI (R404): the service number is comment bits 23:16. -/
def execArmSwi (cond : Cond) (comment : BitVec 24) (s : State) : Result :=
  whenCond cond s fun s => softwareInterrupt (comment.toNat / 0x10000) s

/-- Thumb SWI (46_thumb_branch.md R501). -/
def execThumbSwi (value : BitVec 8) (s : State) : Result := softwareInterrupt value.toNat s

end Sys2Proof.Machine
end

