-- ==== Sys2Proof/Machine/Branch.lean ====
section
/-! DEFINITION. ARM branches and the coprocessor and undefined spaces (spec/43_arm_branch_system.md R400 to R410,
30_encoding.md R212, R214). No coprocessor is attached, so its instructions are undefined encodings (R405). -/

namespace Sys2Proof.Machine

/-- Branch to v in the state v[0] names (R403). -/
def State.exchangeTo (s : State) (v : Word) : State := (s.setFlags { s.cpsr with t := v.getLsbD 0 }).branchTo v

/-- BX (R403). -/
def execArmBx (cond : Cond) (rm : Reg) (s : State) : Result :=
  whenCond cond s fun s => .next ((s.chargeCode .seq).exchangeTo (s.readReg rm))

/-- B (R400). -/
def execArmB (cond : Cond) (off : BitVec 24) (s : State) : Result :=
  whenCond cond s fun s => .next ((s.chargeCode .seq).branchTo (s.pcAhead + branchOffset off 4))

/-- BL (R401): r14 is the address of the next instruction. -/
def execArmBl (cond : Cond) (off : BitVec 24) (s : State) : Result :=
  whenCond cond s fun s =>
    .next (((s.chargeCode .seq).setReg 14 (s.pc + s.instrBytes)).branchTo (s.pcAhead + branchOffset off 4))

/-- An undefined encoding whose condition passes follows UNDEF_POLICY (30_encoding.md R205, R214). -/
def undefinedArm (cond : Cond) (s : State) : Result := whenCond cond s fun s => s.undefinedInstr

/-- The store forms with S = 1 (30_encoding.md R202 row 7, 42_arm_loadstore.md R375). -/
def execArmUndefSignedStore (cond : Cond) (_bits : BitVec 28) (s : State) : Result := undefinedArm cond s

/-- The rest of the multiply and swap extension space (R202 row 8). -/
def execArmUndefMulSpace (cond : Cond) (_bits : BitVec 28) (s : State) : Result := undefinedArm cond s

/-- The rest of the control space (R202 row 12). -/
def execArmUndefControl (cond : Cond) (_bits : BitVec 28) (s : State) : Result := undefinedArm cond s

/-- The immediate tests with S = 0 (R202 row 13). -/
def execArmUndefTestImm (cond : Cond) (_bits : BitVec 28) (s : State) : Result := undefinedArm cond s

/-- The media space (R202 row 15). -/
def execArmUndefMedia (cond : Cond) (_bits : BitVec 28) (s : State) : Result := undefinedArm cond s

/-- STC (R408): no memory is written. -/
def execArmStc (cond : Cond) (_p _u _n _w : Bool) (_rn : Reg) (_crd _cp : BitVec 4) (_off : BitVec 8) (s : State) :
    Result := undefinedArm cond s

/-- LDC (R407): no memory is read and no writeback happens. -/
def execArmLdc (cond : Cond) (_p _u _n _w : Bool) (_rn : Reg) (_crd _cp : BitVec 4) (_off : BitVec 8) (s : State) :
    Result := undefinedArm cond s

/-- CDP (R406). -/
def execArmCdp (cond : Cond) (_opc1 _crn _crd _cp : BitVec 4) (_opc2 : BitVec 3) (_crm : BitVec 4) (s : State) :
    Result := undefinedArm cond s

/-- MCR (R409). -/
def execArmMcr (cond : Cond) (_opc1 : BitVec 3) (_crn : BitVec 4) (_rd : Reg) (_cp : BitVec 4) (_opc2 : BitVec 3)
    (_crm : BitVec 4) (s : State) : Result := undefinedArm cond s

/-- MRC (R410): Rd and the flags are not written. -/
def execArmMrc (cond : Cond) (_opc1 : BitVec 3) (_crn : BitVec 4) (_rd : Reg) (_cp : BitVec 4) (_opc2 : BitVec 3)
    (_crm : BitVec 4) (s : State) : Result := undefinedArm cond s

end Sys2Proof.Machine
end

