-- ==== Sys2Proof/Machine/DataProc.lean ====
section
/-! DEFINITION. ARM data processing and PSR transfer (spec/40_arm_dataproc.md). Each operation has an immediate, an
immediate-shift and a register-shift form; in the last r15 reads as pc + 12 and one I-cycle is added (R300). -/

namespace Sys2Proof.Machine

/-- Write a result: r15 is a branch, after a PSR restore when S = 1; another register also sets the flags (R301). -/
def dpWrite (op : AluOp) (sets : Bool) (rd : Reg) (a : Word) (b : ShiftOut) (s : State) : Result :=
  let res := aluResult op a b.value s.cpsr.c
  if rd = 15 then
    if sets then andThen s.psrRestore fun s1 => .next (s1.branchTo res) else .next (s.branchTo res)
  else
    let s1 := s.setReg rd res
    .next (if sets then s1.setFlags (aluFlags op a b.value b.carry s.cpsr) else s1).advance

/-- The tests write the flags and no register (R301). -/
def dpTest (op : AluOp) (a : Word) (b : ShiftOut) (s : State) : Result :=
  .next (s.setFlags (aluFlags op a b.value b.carry s.cpsr)).advance

/-- The immediate form of an operation that writes a register. -/
def dpImm (op : AluOp) (cond : Cond) (sets : Bool) (rn rd : Reg) (rot : BitVec 4) (imm : BitVec 8) (s : State) :
    Result :=
  whenCond cond s fun s =>
    dpWrite op sets rd (s.readReg rn) (immOperand rot imm s.cpsr.c) (s.chargeCode .seq)

/-- The immediate-shift form. -/
def dpShift (op : AluOp) (cond : Cond) (sets : Bool) (rn rd : Reg) (amt : BitVec 5) (sh : ShiftType) (rm : Reg)
    (s : State) : Result :=
  whenCond cond s fun s =>
    dpWrite op sets rd (s.readReg rn) (immShift sh (s.readReg rm) amt s.cpsr.c) (s.chargeCode .seq)

/-- The register-shift form. -/
def dpReg (op : AluOp) (cond : Cond) (sets : Bool) (rn rd rs : Reg) (sh : ShiftType) (rm : Reg) (s : State) :
    Result :=
  whenCond cond s fun s =>
    dpWrite op sets rd (s.readRegFar rn) (regShift sh (s.readRegFar rm) (s.readRegFar rs) s.cpsr.c)
      ((s.chargeCode .seq).charge 1)

/-- The immediate form of a test. -/
def testImm (op : AluOp) (cond : Cond) (rn : Reg) (rot : BitVec 4) (imm : BitVec 8) (s : State) : Result :=
  whenCond cond s fun s => dpTest op (s.readReg rn) (immOperand rot imm s.cpsr.c) (s.chargeCode .seq)

/-- The immediate-shift form of a test. -/
def testShift (op : AluOp) (cond : Cond) (rn : Reg) (amt : BitVec 5) (sh : ShiftType) (rm : Reg) (s : State) :
    Result :=
  whenCond cond s fun s =>
    dpTest op (s.readReg rn) (immShift sh (s.readReg rm) amt s.cpsr.c) (s.chargeCode .seq)

/-- The register-shift form of a test. -/
def testReg (op : AluOp) (cond : Cond) (rn rs : Reg) (sh : ShiftType) (rm : Reg) (s : State) : Result :=
  whenCond cond s fun s =>
    dpTest op (s.readRegFar rn) (regShift sh (s.readRegFar rm) (s.readRegFar rs) s.cpsr.c)
      ((s.chargeCode .seq).charge 1)

/-- AND with an immediate (R303). -/
def execArmAndImm (cond : Cond) (sets : Bool) (rn : Reg) (rd : Reg) (rot : BitVec 4) (imm : BitVec 8)
    (s : State) : Result :=
  dpImm .and cond sets rn rd rot imm s

/-- AND with a register shifted by an immediate (R303). -/
def execArmAndShift (cond : Cond) (sets : Bool) (rn : Reg) (rd : Reg) (amt : BitVec 5) (sh : ShiftType) (rm : Reg)
    (s : State) : Result :=
  dpShift .and cond sets rn rd amt sh rm s

/-- AND with a register shifted by a register (R303). -/
def execArmAndReg (cond : Cond) (sets : Bool) (rn : Reg) (rd : Reg) (rs : Reg) (sh : ShiftType) (rm : Reg)
    (s : State) : Result :=
  dpReg .and cond sets rn rd rs sh rm s

/-- EOR with an immediate (R304). -/
def execArmEorImm (cond : Cond) (sets : Bool) (rn : Reg) (rd : Reg) (rot : BitVec 4) (imm : BitVec 8)
    (s : State) : Result :=
  dpImm .eor cond sets rn rd rot imm s

/-- EOR with a register shifted by an immediate (R304). -/
def execArmEorShift (cond : Cond) (sets : Bool) (rn : Reg) (rd : Reg) (amt : BitVec 5) (sh : ShiftType) (rm : Reg)
    (s : State) : Result :=
  dpShift .eor cond sets rn rd amt sh rm s

/-- EOR with a register shifted by a register (R304). -/
def execArmEorReg (cond : Cond) (sets : Bool) (rn : Reg) (rd : Reg) (rs : Reg) (sh : ShiftType) (rm : Reg)
    (s : State) : Result :=
  dpReg .eor cond sets rn rd rs sh rm s

/-- SUB with an immediate (R305). -/
def execArmSubImm (cond : Cond) (sets : Bool) (rn : Reg) (rd : Reg) (rot : BitVec 4) (imm : BitVec 8)
    (s : State) : Result :=
  dpImm .sub cond sets rn rd rot imm s

/-- SUB with a register shifted by an immediate (R305). -/
def execArmSubShift (cond : Cond) (sets : Bool) (rn : Reg) (rd : Reg) (amt : BitVec 5) (sh : ShiftType) (rm : Reg)
    (s : State) : Result :=
  dpShift .sub cond sets rn rd amt sh rm s

/-- SUB with a register shifted by a register (R305). -/
def execArmSubReg (cond : Cond) (sets : Bool) (rn : Reg) (rd : Reg) (rs : Reg) (sh : ShiftType) (rm : Reg)
    (s : State) : Result :=
  dpReg .sub cond sets rn rd rs sh rm s

/-- RSB with an immediate (R306). -/
def execArmRsbImm (cond : Cond) (sets : Bool) (rn : Reg) (rd : Reg) (rot : BitVec 4) (imm : BitVec 8)
    (s : State) : Result :=
  dpImm .rsb cond sets rn rd rot imm s

/-- RSB with a register shifted by an immediate (R306). -/
def execArmRsbShift (cond : Cond) (sets : Bool) (rn : Reg) (rd : Reg) (amt : BitVec 5) (sh : ShiftType) (rm : Reg)
    (s : State) : Result :=
  dpShift .rsb cond sets rn rd amt sh rm s

/-- RSB with a register shifted by a register (R306). -/
def execArmRsbReg (cond : Cond) (sets : Bool) (rn : Reg) (rd : Reg) (rs : Reg) (sh : ShiftType) (rm : Reg)
    (s : State) : Result :=
  dpReg .rsb cond sets rn rd rs sh rm s

/-- ADD with an immediate (R307). -/
def execArmAddImm (cond : Cond) (sets : Bool) (rn : Reg) (rd : Reg) (rot : BitVec 4) (imm : BitVec 8)
    (s : State) : Result :=
  dpImm .add cond sets rn rd rot imm s

/-- ADD with a register shifted by an immediate (R307). -/
def execArmAddShift (cond : Cond) (sets : Bool) (rn : Reg) (rd : Reg) (amt : BitVec 5) (sh : ShiftType) (rm : Reg)
    (s : State) : Result :=
  dpShift .add cond sets rn rd amt sh rm s

/-- ADD with a register shifted by a register (R307). -/
def execArmAddReg (cond : Cond) (sets : Bool) (rn : Reg) (rd : Reg) (rs : Reg) (sh : ShiftType) (rm : Reg)
    (s : State) : Result :=
  dpReg .add cond sets rn rd rs sh rm s

/-- ADC with an immediate (R308). -/
def execArmAdcImm (cond : Cond) (sets : Bool) (rn : Reg) (rd : Reg) (rot : BitVec 4) (imm : BitVec 8)
    (s : State) : Result :=
  dpImm .adc cond sets rn rd rot imm s

/-- ADC with a register shifted by an immediate (R308). -/
def execArmAdcShift (cond : Cond) (sets : Bool) (rn : Reg) (rd : Reg) (amt : BitVec 5) (sh : ShiftType) (rm : Reg)
    (s : State) : Result :=
  dpShift .adc cond sets rn rd amt sh rm s

/-- ADC with a register shifted by a register (R308). -/
def execArmAdcReg (cond : Cond) (sets : Bool) (rn : Reg) (rd : Reg) (rs : Reg) (sh : ShiftType) (rm : Reg)
    (s : State) : Result :=
  dpReg .adc cond sets rn rd rs sh rm s

/-- SBC with an immediate (R309). -/
def execArmSbcImm (cond : Cond) (sets : Bool) (rn : Reg) (rd : Reg) (rot : BitVec 4) (imm : BitVec 8)
    (s : State) : Result :=
  dpImm .sbc cond sets rn rd rot imm s

/-- SBC with a register shifted by an immediate (R309). -/
def execArmSbcShift (cond : Cond) (sets : Bool) (rn : Reg) (rd : Reg) (amt : BitVec 5) (sh : ShiftType) (rm : Reg)
    (s : State) : Result :=
  dpShift .sbc cond sets rn rd amt sh rm s

/-- SBC with a register shifted by a register (R309). -/
def execArmSbcReg (cond : Cond) (sets : Bool) (rn : Reg) (rd : Reg) (rs : Reg) (sh : ShiftType) (rm : Reg)
    (s : State) : Result :=
  dpReg .sbc cond sets rn rd rs sh rm s

/-- RSC with an immediate (R310). -/
def execArmRscImm (cond : Cond) (sets : Bool) (rn : Reg) (rd : Reg) (rot : BitVec 4) (imm : BitVec 8)
    (s : State) : Result :=
  dpImm .rsc cond sets rn rd rot imm s

/-- RSC with a register shifted by an immediate (R310). -/
def execArmRscShift (cond : Cond) (sets : Bool) (rn : Reg) (rd : Reg) (amt : BitVec 5) (sh : ShiftType) (rm : Reg)
    (s : State) : Result :=
  dpShift .rsc cond sets rn rd amt sh rm s

/-- RSC with a register shifted by a register (R310). -/
def execArmRscReg (cond : Cond) (sets : Bool) (rn : Reg) (rd : Reg) (rs : Reg) (sh : ShiftType) (rm : Reg)
    (s : State) : Result :=
  dpReg .rsc cond sets rn rd rs sh rm s

/-- TST with an immediate (R311). -/
def execArmTstImm (cond : Cond) (rn : Reg) (rot : BitVec 4) (imm : BitVec 8)
    (s : State) : Result :=
  testImm .tst cond rn rot imm s

/-- TST with a register shifted by an immediate (R311). -/
def execArmTstShift (cond : Cond) (rn : Reg) (amt : BitVec 5) (sh : ShiftType) (rm : Reg)
    (s : State) : Result :=
  testShift .tst cond rn amt sh rm s

/-- TST with a register shifted by a register (R311). -/
def execArmTstReg (cond : Cond) (rn : Reg) (rs : Reg) (sh : ShiftType) (rm : Reg)
    (s : State) : Result :=
  testReg .tst cond rn rs sh rm s

/-- TEQ with an immediate (R312). -/
def execArmTeqImm (cond : Cond) (rn : Reg) (rot : BitVec 4) (imm : BitVec 8)
    (s : State) : Result :=
  testImm .teq cond rn rot imm s

/-- TEQ with a register shifted by an immediate (R312). -/
def execArmTeqShift (cond : Cond) (rn : Reg) (amt : BitVec 5) (sh : ShiftType) (rm : Reg)
    (s : State) : Result :=
  testShift .teq cond rn amt sh rm s

/-- TEQ with a register shifted by a register (R312). -/
def execArmTeqReg (cond : Cond) (rn : Reg) (rs : Reg) (sh : ShiftType) (rm : Reg)
    (s : State) : Result :=
  testReg .teq cond rn rs sh rm s

/-- CMP with an immediate (R313). -/
def execArmCmpImm (cond : Cond) (rn : Reg) (rot : BitVec 4) (imm : BitVec 8)
    (s : State) : Result :=
  testImm .cmp cond rn rot imm s

/-- CMP with a register shifted by an immediate (R313). -/
def execArmCmpShift (cond : Cond) (rn : Reg) (amt : BitVec 5) (sh : ShiftType) (rm : Reg)
    (s : State) : Result :=
  testShift .cmp cond rn amt sh rm s

/-- CMP with a register shifted by a register (R313). -/
def execArmCmpReg (cond : Cond) (rn : Reg) (rs : Reg) (sh : ShiftType) (rm : Reg)
    (s : State) : Result :=
  testReg .cmp cond rn rs sh rm s

/-- CMN with an immediate (R314). -/
def execArmCmnImm (cond : Cond) (rn : Reg) (rot : BitVec 4) (imm : BitVec 8)
    (s : State) : Result :=
  testImm .cmn cond rn rot imm s

/-- CMN with a register shifted by an immediate (R314). -/
def execArmCmnShift (cond : Cond) (rn : Reg) (amt : BitVec 5) (sh : ShiftType) (rm : Reg)
    (s : State) : Result :=
  testShift .cmn cond rn amt sh rm s

/-- CMN with a register shifted by a register (R314). -/
def execArmCmnReg (cond : Cond) (rn : Reg) (rs : Reg) (sh : ShiftType) (rm : Reg)
    (s : State) : Result :=
  testReg .cmn cond rn rs sh rm s

/-- ORR with an immediate (R315). -/
def execArmOrrImm (cond : Cond) (sets : Bool) (rn : Reg) (rd : Reg) (rot : BitVec 4) (imm : BitVec 8)
    (s : State) : Result :=
  dpImm .orr cond sets rn rd rot imm s

/-- ORR with a register shifted by an immediate (R315). -/
def execArmOrrShift (cond : Cond) (sets : Bool) (rn : Reg) (rd : Reg) (amt : BitVec 5) (sh : ShiftType) (rm : Reg)
    (s : State) : Result :=
  dpShift .orr cond sets rn rd amt sh rm s

/-- ORR with a register shifted by a register (R315). -/
def execArmOrrReg (cond : Cond) (sets : Bool) (rn : Reg) (rd : Reg) (rs : Reg) (sh : ShiftType) (rm : Reg)
    (s : State) : Result :=
  dpReg .orr cond sets rn rd rs sh rm s

/-- MOV with an immediate (R316). Rn is ignored. -/
def execArmMovImm (cond : Cond) (sets : Bool) (rd : Reg) (rot : BitVec 4) (imm : BitVec 8)
    (s : State) : Result :=
  dpImm .mov cond sets 0 rd rot imm s

/-- MOV with a register shifted by an immediate (R316). Rn is ignored. -/
def execArmMovShift (cond : Cond) (sets : Bool) (rd : Reg) (amt : BitVec 5) (sh : ShiftType) (rm : Reg)
    (s : State) : Result :=
  dpShift .mov cond sets 0 rd amt sh rm s

/-- MOV with a register shifted by a register (R316). Rn is ignored. -/
def execArmMovReg (cond : Cond) (sets : Bool) (rd : Reg) (rs : Reg) (sh : ShiftType) (rm : Reg)
    (s : State) : Result :=
  dpReg .mov cond sets 0 rd rs sh rm s

/-- BIC with an immediate (R317). -/
def execArmBicImm (cond : Cond) (sets : Bool) (rn : Reg) (rd : Reg) (rot : BitVec 4) (imm : BitVec 8)
    (s : State) : Result :=
  dpImm .bic cond sets rn rd rot imm s

/-- BIC with a register shifted by an immediate (R317). -/
def execArmBicShift (cond : Cond) (sets : Bool) (rn : Reg) (rd : Reg) (amt : BitVec 5) (sh : ShiftType) (rm : Reg)
    (s : State) : Result :=
  dpShift .bic cond sets rn rd amt sh rm s

/-- BIC with a register shifted by a register (R317). -/
def execArmBicReg (cond : Cond) (sets : Bool) (rn : Reg) (rd : Reg) (rs : Reg) (sh : ShiftType) (rm : Reg)
    (s : State) : Result :=
  dpReg .bic cond sets rn rd rs sh rm s

/-- MVN with an immediate (R318). Rn is ignored. -/
def execArmMvnImm (cond : Cond) (sets : Bool) (rd : Reg) (rot : BitVec 4) (imm : BitVec 8)
    (s : State) : Result :=
  dpImm .mvn cond sets 0 rd rot imm s

/-- MVN with a register shifted by an immediate (R318). Rn is ignored. -/
def execArmMvnShift (cond : Cond) (sets : Bool) (rd : Reg) (amt : BitVec 5) (sh : ShiftType) (rm : Reg)
    (s : State) : Result :=
  dpShift .mvn cond sets 0 rd amt sh rm s

/-- MVN with a register shifted by a register (R318). Rn is ignored. -/
def execArmMvnReg (cond : Cond) (sets : Bool) (rd : Reg) (rs : Reg) (sh : ShiftType) (rm : Reg)
    (s : State) : Result :=
  dpReg .mvn cond sets 0 rd rs sh rm s

/-- MRS (R319): the CPSR, or the SPSR of the current mode; User and System mode read the CPSR (10_state.md R43). -/
def execArmMrs (cond : Cond) (r : Bool) (rd : Reg) (s : State) : Result :=
  whenCond cond s fun s =>
    let p := if r then (s.spsrOf s.cpsr.m).getD s.cpsr else s.cpsr
    .next ((s.chargeCode .seq).writeResult rd (psrWord p))

/-- Bit f of an MSR field mask, for PSR[31:24] (R320). -/
def fieldF (mask : BitVec 4) : Bool := mask.getLsbD 3

/-- Bit c of an MSR field mask, for PSR[7:0] (R320). -/
def fieldC (mask : BitVec 4) : Bool := mask.getLsbD 0

/-- The flags of v where f is set. -/
def mergeFlags (f : Bool) (p v : Psr) : Psr := if f then { p with n := v.n, z := v.z, c := v.c, v := v.v } else p

/-- What MSR writes to the CPSR: I, F and M only in a privileged mode, never T (R320). -/
def msrCpsr (mask : BitVec 4) (p v : Psr) : Psr :=
  let q := mergeFlags (fieldF mask) p v
  if fieldC mask && p.m != modeUsr then { q with i := v.i, f := v.f, m := v.m } else q

/-- What MSR writes to an SPSR (R320). -/
def msrSpsr (mask : BitVec 4) (p v : Psr) : Psr :=
  let q := mergeFlags (fieldF mask) p v
  if fieldC mask then { q with i := v.i, f := v.f, t := v.t, m := v.m } else q

/-- MSR of a value (R320): an illegal mode is refused (10_state.md R42); an SPSR write in User or System mode is
ignored (R43). -/
def msrWrite (r : Bool) (mask : BitVec 4) (v : Word) (s : State) : Result :=
  let s1 := s.chargeCode .seq
  let w := psrOfWord v
  if r then
    match s.spsrOf s.cpsr.m with
    | none => .next s1.advance
    | some p =>
      if fieldC mask && !legalMode w.m then .refused .invalidMode
      else .next (s1.setSpsr s.cpsr.m (msrSpsr mask p w)).advance
  else
    let q := msrCpsr mask s.cpsr w
    if legalMode q.m then .next (s1.setFlags q).advance else .refused .invalidMode

/-- MSR, register form (R320). -/
def execArmMsrReg (cond : Cond) (r : Bool) (mask : BitVec 4) (rm : Reg) (s : State) : Result :=
  whenCond cond s fun s => msrWrite r mask (s.readReg rm) s

/-- MSR, immediate form (R320). -/
def execArmMsrImm (cond : Cond) (r : Bool) (mask : BitVec 4) (rot : BitVec 4) (imm : BitVec 8) (s : State) :
    Result :=
  whenCond cond s fun s => msrWrite r mask (immOperand rot imm s.cpsr.c).value s

end Sys2Proof.Machine
end

