-- ==== Sys2Proof/Machine/Multiply.lean ====
section
/-! DEFINITION. ARM multiplies (spec/41_arm_multiply.md): operands are read before any write, a write of r15 is a
branch (R348), and the cost depends on Rs (70_reset_and_hazards.md R880, R881). -/

namespace Sys2Proof.Machine

/-- Write a 32-bit product and, with S = 1, the flags. -/
def mulWrite (sets : Bool) (rd : Reg) (res : Word) (s : State) : Result :=
  .next ((if sets then s.mulFlags res else s).writeResult rd res)

/-- Write a 64-bit product: RdLo first and RdHi second, so that RdHi stands where both are one register; with r15 among
them the later write decides the branch (R348). -/
def mulLongWrite (sets : Bool) (hi lo : Reg) (p : BitVec 64) (s : State) : Result :=
  let s1 := if sets then s.mulLongFlags p else s
  let vl : Word := p.extractLsb' 0 32
  let vh : Word := p.extractLsb' 32 32
  let s2 := (s1.setReg lo vl).setReg hi vh
  if hi = 15 then .next (s2.branchTo vh)
  else if lo = 15 then .next (s2.branchTo vl)
  else .next s2.advance

/-- The unsigned 64-bit product (R343). -/
def umul64 (a b : Word) : BitVec 64 := BitVec.ofNat 64 (a.toNat * b.toNat)

/-- The signed 64-bit product (R345). -/
def smul64 (a b : Word) : BitVec 64 := BitVec.ofInt 64 (a.toInt * b.toInt)

/-- MUL (R341). -/
def execArmMul (cond : Cond) (sets : Bool) (rd rs rm : Reg) (s : State) : Result :=
  whenCond cond s fun s =>
    mulWrite sets rd (s.readReg rm * s.readReg rs)
      ((s.chargeCode .seq).charge (mulCyclesSigned (s.readReg rs)))

/-- MLA (R342). -/
def execArmMla (cond : Cond) (sets : Bool) (rd rn rs rm : Reg) (s : State) : Result :=
  whenCond cond s fun s =>
    mulWrite sets rd (s.readReg rm * s.readReg rs + s.readReg rn)
      ((s.chargeCode .seq).charge (mulCyclesSigned (s.readReg rs) + 1))

/-- UMULL (R343). -/
def execArmUmull (cond : Cond) (sets : Bool) (rdHi rdLo rs rm : Reg) (s : State) : Result :=
  whenCond cond s fun s =>
    mulLongWrite sets rdHi rdLo (umul64 (s.readReg rm) (s.readReg rs))
      ((s.chargeCode .seq).charge (mulCyclesUnsigned (s.readReg rs) + 1))

/-- UMLAL (R344). -/
def execArmUmlal (cond : Cond) (sets : Bool) (rdHi rdLo rs rm : Reg) (s : State) : Result :=
  whenCond cond s fun s =>
    mulLongWrite sets rdHi rdLo (umul64 (s.readReg rm) (s.readReg rs) + (s.readReg rdHi ++ s.readReg rdLo))
      ((s.chargeCode .seq).charge (mulCyclesUnsigned (s.readReg rs) + 2))

/-- SMULL (R345). -/
def execArmSmull (cond : Cond) (sets : Bool) (rdHi rdLo rs rm : Reg) (s : State) : Result :=
  whenCond cond s fun s =>
    mulLongWrite sets rdHi rdLo (smul64 (s.readReg rm) (s.readReg rs))
      ((s.chargeCode .seq).charge (mulCyclesSigned (s.readReg rs) + 1))

/-- SMLAL (R346). -/
def execArmSmlal (cond : Cond) (sets : Bool) (rdHi rdLo rs rm : Reg) (s : State) : Result :=
  whenCond cond s fun s =>
    mulLongWrite sets rdHi rdLo (smul64 (s.readReg rm) (s.readReg rs) + (s.readReg rdHi ++ s.readReg rdLo))
      ((s.chargeCode .seq).charge (mulCyclesSigned (s.readReg rs) + 2))

end Sys2Proof.Machine
end

