-- ==== Sys2Proof/Machine/ThumbAlu.lean ====
section
/-! DEFINITION. Thumb shifts, arithmetic, ALU and hi-register operations (spec/44_thumb_alu.md). Formats 1 to 4 set
flags; of format 5 only CMP does (R430). -/

namespace Sys2Proof.Machine

/-- An operand that leaves C as it is. -/
def plainOperand (s : State) (v : Word) : ShiftOut := { value := v, carry := s.cpsr.c }

/-- A flag-setting operation that writes a low register. -/
def thumbAlu (op : AluOp) (rd : LowReg) (a : Word) (b : ShiftOut) (s : State) : Result :=
  dpWrite op true (lowReg rd) a b (s.chargeCode .seq)

/-- A comparison: flags only. -/
def thumbTest (op : AluOp) (a : Word) (b : ShiftOut) (s : State) : Result := dpTest op a b (s.chargeCode .seq)

/-- A format 1 shift by an immediate (R431 to R433). -/
def thumbShiftImm (sh : ShiftType) (off : BitVec 5) (rs rd : LowReg) (s : State) : Result :=
  thumbAlu .mov rd 0 (immShift sh (s.readReg (lowReg rs)) off s.cpsr.c) s

/-- A format 4 shift by a register, with one I-cycle (R444 to R446, R449; 70_reset_and_hazards.md R880). -/
def thumbShiftReg (sh : ShiftType) (rs rd : LowReg) (s : State) : Result :=
  thumbAlu .mov rd 0 (regShift sh (s.readReg (lowReg rd)) (s.readReg (lowReg rs)) s.cpsr.c) (s.charge 1)

/-- A format 4 operation on Rd and Rs that writes Rd. -/
def thumbOp4 (op : AluOp) (rs rd : LowReg) (s : State) : Result :=
  thumbAlu op rd (s.readReg (lowReg rd)) (plainOperand s (s.readReg (lowReg rs))) s

/-- A format 4 comparison of Rd with Rs. -/
def thumbTest4 (op : AluOp) (rs rd : LowReg) (s : State) : Result :=
  thumbTest op (s.readReg (lowReg rd)) (plainOperand s (s.readReg (lowReg rs))) s

/-- LSL Rd, Rs, #off5 (R431). -/
def execThumbLslImm (off : BitVec 5) (rs rd : LowReg) (s : State) : Result :=
  thumbShiftImm .lsl off rs rd s

/-- LSR Rd, Rs, #off5 (R432). -/
def execThumbLsrImm (off : BitVec 5) (rs rd : LowReg) (s : State) : Result :=
  thumbShiftImm .lsr off rs rd s

/-- ASR Rd, Rs, #off5 (R433). -/
def execThumbAsrImm (off : BitVec 5) (rs rd : LowReg) (s : State) : Result :=
  thumbShiftImm .asr off rs rd s

/-- ADD Rd, Rs, Rn (R434). -/
def execThumbAddReg (rn rs rd : LowReg) (s : State) : Result :=
  thumbAlu .add rd (s.readReg (lowReg rs)) (plainOperand s (s.readReg (lowReg rn))) s

/-- SUB Rd, Rs, Rn (R435). -/
def execThumbSubReg (rn rs rd : LowReg) (s : State) : Result :=
  thumbAlu .sub rd (s.readReg (lowReg rs)) (plainOperand s (s.readReg (lowReg rn))) s

/-- ADD Rd, Rs, #imm3 (R436). -/
def execThumbAddImm3 (imm : BitVec 3) (rs rd : LowReg) (s : State) : Result :=
  thumbAlu .add rd (s.readReg (lowReg rs)) (plainOperand s (imm.zeroExtend 32)) s

/-- SUB Rd, Rs, #imm3 (R437). -/
def execThumbSubImm3 (imm : BitVec 3) (rs rd : LowReg) (s : State) : Result :=
  thumbAlu .sub rd (s.readReg (lowReg rs)) (plainOperand s (imm.zeroExtend 32)) s

/-- MOV Rd, #imm8 (R438). -/
def execThumbMovImm (rd : LowReg) (imm : BitVec 8) (s : State) : Result :=
  thumbAlu .mov rd 0 (plainOperand s (imm.zeroExtend 32)) s

/-- CMP Rd, #imm8 (R439). -/
def execThumbCmpImm (rd : LowReg) (imm : BitVec 8) (s : State) : Result :=
  thumbTest .cmp (s.readReg (lowReg rd)) (plainOperand s (imm.zeroExtend 32)) s

/-- ADD Rd, #imm8 (R440). -/
def execThumbAddImm8 (rd : LowReg) (imm : BitVec 8) (s : State) : Result :=
  thumbAlu .add rd (s.readReg (lowReg rd)) (plainOperand s (imm.zeroExtend 32)) s

/-- SUB Rd, #imm8 (R441). -/
def execThumbSubImm8 (rd : LowReg) (imm : BitVec 8) (s : State) : Result :=
  thumbAlu .sub rd (s.readReg (lowReg rd)) (plainOperand s (imm.zeroExtend 32)) s

/-- AND Rd, Rs (R442). -/
def execThumbAnd (rs rd : LowReg) (s : State) : Result :=
  thumbOp4 .and rs rd s

/-- EOR Rd, Rs (R443). -/
def execThumbEor (rs rd : LowReg) (s : State) : Result :=
  thumbOp4 .eor rs rd s

/-- LSL Rd, Rs (R444). -/
def execThumbLslReg (rs rd : LowReg) (s : State) : Result :=
  thumbShiftReg .lsl rs rd s

/-- LSR Rd, Rs (R445). -/
def execThumbLsrReg (rs rd : LowReg) (s : State) : Result :=
  thumbShiftReg .lsr rs rd s

/-- ASR Rd, Rs (R446). -/
def execThumbAsrReg (rs rd : LowReg) (s : State) : Result :=
  thumbShiftReg .asr rs rd s

/-- ADC Rd, Rs (R447). -/
def execThumbAdc (rs rd : LowReg) (s : State) : Result :=
  thumbOp4 .adc rs rd s

/-- SBC Rd, Rs (R448). -/
def execThumbSbc (rs rd : LowReg) (s : State) : Result :=
  thumbOp4 .sbc rs rd s

/-- ROR Rd, Rs (R449). -/
def execThumbRor (rs rd : LowReg) (s : State) : Result :=
  thumbShiftReg .ror rs rd s

/-- TST Rd, Rs (R450). -/
def execThumbTst (rs rd : LowReg) (s : State) : Result :=
  thumbTest4 .tst rs rd s

/-- NEG Rd, Rs (R451): 0 - Rs. -/
def execThumbNeg (rs rd : LowReg) (s : State) : Result :=
  thumbAlu .rsb rd (s.readReg (lowReg rs)) (plainOperand s 0) s

/-- CMP Rd, Rs (R452). -/
def execThumbCmp (rs rd : LowReg) (s : State) : Result :=
  thumbTest4 .cmp rs rd s

/-- CMN Rd, Rs (R453). -/
def execThumbCmn (rs rd : LowReg) (s : State) : Result :=
  thumbTest4 .cmn rs rd s

/-- ORR Rd, Rs (R454). -/
def execThumbOrr (rs rd : LowReg) (s : State) : Result :=
  thumbOp4 .orr rs rd s

/-- MUL Rd, Rs (R455): the cost depends on Rd. -/
def execThumbMul (rs rd : LowReg) (s : State) : Result :=
  mulWrite true (lowReg rd) (s.readReg (lowReg rd) * s.readReg (lowReg rs))
    ((s.chargeCode .seq).charge (mulCyclesSigned (s.readReg (lowReg rd))))

/-- BIC Rd, Rs (R456). -/
def execThumbBic (rs rd : LowReg) (s : State) : Result :=
  thumbOp4 .bic rs rd s

/-- MVN Rd, Rs (R457). -/
def execThumbMvn (rs rd : LowReg) (s : State) : Result :=
  thumbOp4 .mvn rs rd s

/-- ADD Rd, Rs on any registers, without flags (R459). -/
def execThumbAddHi (rs rd : Reg) (s : State) : Result :=
  .next ((s.chargeCode .seq).writeResult rd (s.readReg rd + s.readReg rs))

/-- CMP Rd, Rs on any registers (R460). -/
def execThumbCmpHi (rs rd : Reg) (s : State) : Result :=
  thumbTest .cmp (s.readReg rd) (plainOperand s (s.readReg rs)) s

/-- MOV Rd, Rs on any registers, without flags (R461). -/
def execThumbMovHi (rs rd : Reg) (s : State) : Result :=
  .next ((s.chargeCode .seq).writeResult rd (s.readReg rs))

/-- BX Rs (R462). -/
def execThumbBx (rs : Reg) (s : State) : Result :=
  .next ((s.chargeCode .seq).exchangeTo (s.readReg rs))

end Sys2Proof.Machine
end

