-- ==== Sys2Proof/Machine/ThumbBranch.lean ====
section
/-! DEFINITION. Thumb branches and undefined spaces (spec/46_thumb_branch.md). -/

namespace Sys2Proof.Machine

/-- B<cond> (R500). -/
def execThumbBcond (c : Cond) (off : BitVec 8) (s : State) : Result :=
  if condPassed c s.cpsr then .next ((s.chargeCode .seq).branchTo (s.pcAhead + branchOffset off 2)) else .next s.skip

/-- B (R502). -/
def execThumbB (off : BitVec 11) (s : State) : Result :=
  .next ((s.chargeCode .seq).branchTo (s.pcAhead + branchOffset off 2))

/-- BL, first half (R503). -/
def execThumbBlPrefix (off : BitVec 11) (s : State) : Result :=
  .next ((s.chargeCode .seq).writeResult 14 (s.pcAhead + branchOffset off 4096))

/-- BL, second half (R504). -/
def execThumbBlSuffix (off : BitVec 11) (s : State) : Result :=
  .next (((s.chargeCode .seq).setReg 14 ((s.pc + s.instrBytes) ||| 1)).branchTo
    (s.readReg 14 + off.zeroExtend 32 * 2))

/-- The rest of the 1011 space (R505). -/
def execThumbUndef1011 (_bits : BitVec 12) (s : State) : Result :=
  s.undefinedInstr

/-- A conditional branch with condition 1110 (R505). -/
def execThumbUndefCond (_bits : BitVec 8) (s : State) : Result :=
  s.undefinedInstr

/-- The BLX suffix space (R505). -/
def execThumbUndefBlx (_bits : BitVec 11) (s : State) : Result :=
  s.undefinedInstr

end Sys2Proof.Machine
end

