-- ==== Sys2Proof/Machine/LoadStore.lean ====
section
/-! DEFINITION. ARM single transfers and swaps (spec/42_arm_loadstore.md R360 to R375, R390 to R392). -/

namespace Sys2Proof.Machine

/-- Write back the base, if the address form asks for it; a written-back r15 is the branch of `finishBase` (R369). -/
def writeBase (o : AddrOut) (s : State) : State :=
  match o.wback with
  | some v => s.setReg o.base v
  | none => s

/-- Go on after a transfer that does not load r15: a written-back r15 is a branch, else the next instruction (R369). -/
def finishBase (o : AddrOut) (s : State) : State :=
  match o.wback with
  | some v => if o.base = 15 then s.branchTo v else s.advance
  | none => s.advance

/-- A load of value v: writeback first, then the loaded register, so that it wins where both are one (R361, R369). -/
def loadFinish (o : AddrOut) (rd : Reg) (v : Word) (s : State) : Result :=
  let s1 := writeBase o s
  if rd = 15 then .next (s1.branchTo v) else .next (finishBase o (s1.setReg rd v))

/-- Charge a load: Sc, Nd and one I (70_reset_and_hazards.md R880). -/
def chargeLoad (w : Width) (a : Word) (s : State) : State := ((s.chargeCode .seq).chargeData w a .nonseq).charge 1

/-- Charge a store: Nc and Nd (R880). -/
def chargeStore (w : Width) (a : Word) (s : State) : State := (s.chargeCode .nonseq).chargeData w a .nonseq

/-- The value LDR loads: the aligned word, rotated (R361). -/
def loadWordValue (s : State) (a : Word) : Word := rotateLoaded (s.load .word a) a

/-- The value LDRB loads (R363). -/
def loadByteValue (s : State) (a : Word) : Word := s.load .byte a

/-- The value LDRH loads: an odd address rotates by 8 (R372). -/
def loadHalfValue (s : State) (a : Word) : Word := (s.load .half a).rotateRight (8 * (a.toNat % 2))

/-- The value LDRSB loads (R373). -/
def loadSignedByteValue (s : State) (a : Word) : Word := ((s.load .byte a).setWidth 8).signExtend 32

/-- The value LDRSH loads: an odd address loads a signed byte (R374). -/
def loadSignedHalfValue (s : State) (a : Word) : Word :=
  if a.toNat % 2 = 0 then ((s.load .half a).setWidth 16).signExtend 32 else loadSignedByteValue s a

/-- LDR, LDRT: load a word (R361, R365). -/
def loadWord (o : AddrOut) (rd : Reg) (s : State) : Result :=
  loadFinish o rd (loadWordValue s o.addr) (chargeLoad .word o.addr s)

/-- LDRB, LDRBT: load a byte (R363, R367). -/
def loadByte (o : AddrOut) (rd : Reg) (s : State) : Result :=
  loadFinish o rd (loadByteValue s o.addr) (chargeLoad .byte o.addr s)

/-- A store of the register read before the writeback, r15 as pc + 12 (R362, R364, R371). -/
def storeReg (w : Width) (o : AddrOut) (rd : Reg) (s : State) : Result :=
  .next (finishBase o (writeBase o ((chargeStore w o.addr s).store w o.addr (s.readRegFar rd))))

/-- LDR, pre-indexed (R361). -/
def execArmLdrPre (cond : Cond) (w : Bool) (m : Mode2) (rd : Reg) (s : State) : Result :=
  whenCond cond s fun s => loadWord (addr2Pre s w m) rd s

/-- STR, pre-indexed (R362). -/
def execArmStrPre (cond : Cond) (w : Bool) (m : Mode2) (rd : Reg) (s : State) : Result :=
  whenCond cond s fun s => storeReg .word (addr2Pre s w m) rd s

/-- LDRB, pre-indexed (R363). -/
def execArmLdrbPre (cond : Cond) (w : Bool) (m : Mode2) (rd : Reg) (s : State) : Result :=
  whenCond cond s fun s => loadByte (addr2Pre s w m) rd s

/-- STRB, pre-indexed (R364). -/
def execArmStrbPre (cond : Cond) (w : Bool) (m : Mode2) (rd : Reg) (s : State) : Result :=
  whenCond cond s fun s => storeReg .byte (addr2Pre s w m) rd s

/-- LDR, post-indexed (R361). -/
def execArmLdrPost (cond : Cond) (m : Mode2) (rd : Reg) (s : State) : Result :=
  whenCond cond s fun s => loadWord (addr2Post s m) rd s

/-- STR, post-indexed (R362). -/
def execArmStrPost (cond : Cond) (m : Mode2) (rd : Reg) (s : State) : Result :=
  whenCond cond s fun s => storeReg .word (addr2Post s m) rd s

/-- LDRB, post-indexed (R363). -/
def execArmLdrbPost (cond : Cond) (m : Mode2) (rd : Reg) (s : State) : Result :=
  whenCond cond s fun s => loadByte (addr2Post s m) rd s

/-- STRB, post-indexed (R364). -/
def execArmStrbPost (cond : Cond) (m : Mode2) (rd : Reg) (s : State) : Result :=
  whenCond cond s fun s => storeReg .byte (addr2Post s m) rd s

/-- LDRT: LDR in every mode, since there is no memory protection (R365). -/
def execArmLdrt (cond : Cond) (m : Mode2) (rd : Reg) (s : State) : Result :=
  whenCond cond s fun s => loadWord (addr2Post s m) rd s

/-- STRT (R366). -/
def execArmStrt (cond : Cond) (m : Mode2) (rd : Reg) (s : State) : Result :=
  whenCond cond s fun s => storeReg .word (addr2Post s m) rd s

/-- LDRBT (R367). -/
def execArmLdrbt (cond : Cond) (m : Mode2) (rd : Reg) (s : State) : Result :=
  whenCond cond s fun s => loadByte (addr2Post s m) rd s

/-- STRBT (R368). -/
def execArmStrbt (cond : Cond) (m : Mode2) (rd : Reg) (s : State) : Result :=
  whenCond cond s fun s => storeReg .byte (addr2Post s m) rd s

/-- STRH (R371). -/
def execArmStrh (cond : Cond) (m : Mode3) (rd : Reg) (s : State) : Result :=
  whenCond cond s fun s => storeReg .half (addr3 s m) rd s

/-- LDRH (R372). -/
def execArmLdrh (cond : Cond) (m : Mode3) (rd : Reg) (s : State) : Result :=
  whenCond cond s fun s =>
    loadFinish (addr3 s m) rd (loadHalfValue s (addr3 s m).addr) (chargeLoad .half (addr3 s m).addr s)

/-- LDRSB (R373). -/
def execArmLdrsb (cond : Cond) (m : Mode3) (rd : Reg) (s : State) : Result :=
  whenCond cond s fun s =>
    loadFinish (addr3 s m) rd (loadSignedByteValue s (addr3 s m).addr) (chargeLoad .byte (addr3 s m).addr s)

/-- LDRSH (R374). A byte access costs what a halfword access costs, so one charge serves even and odd addresses. -/
def execArmLdrsh (cond : Cond) (m : Mode3) (rd : Reg) (s : State) : Result :=
  whenCond cond s fun s =>
    loadFinish (addr3 s m) rd (loadSignedHalfValue s (addr3 s m).addr) (chargeLoad .half (addr3 s m).addr s)

/-- Charge a swap: Sc, the read and the write as Nd at one address, and one I (70_reset_and_hazards.md R880). -/
def chargeSwap (w : Width) (a : Word) (s : State) : State :=
  ((((s.chargeCode .seq).chargeData w a .nonseq).chargeData w a .nonseq)).charge 1

/-- SWP (R390): Rm is read before Rd is written, and r15 reads pc + 8 (R392). -/
def execArmSwp (cond : Cond) (rn rd rm : Reg) (s : State) : Result :=
  whenCond cond s fun s =>
    let a := s.readReg rn
    .next (((chargeSwap .word a s).store .word a (s.readReg rm)).writeResult rd (loadWordValue s a))

/-- SWPB (R391). -/
def execArmSwpb (cond : Cond) (rn rd rm : Reg) (s : State) : Result :=
  whenCond cond s fun s =>
    let a := s.readReg rn
    .next (((chargeSwap .byte a s).store .byte a (s.readReg rm)).writeResult rd (loadByteValue s a))

end Sys2Proof.Machine
end

