-- ==== Sys2Proof/Machine/Block.lean ====
section
/-! DEFINITION. Block transfers: LDM and STM (spec/42_arm_loadstore.md R380 to R386), on which PUSH, POP, STMIA and
LDMIA of Thumb rest (spec/45_thumb_loadstore.md R491 to R495). -/

namespace Sys2Proof.Machine

/-- The words of ascending addresses from a, one for each register of the list, unrotated (R380, R381). -/
def blockValues (s : State) : List Reg → Word → List (Reg × Word)
  | [], _ => []
  | r :: rs, a => (r, s.load .word a) :: blockValues s rs (a + 4)

/-- Charge the data accesses of a block load: Nd first, then Sd (70_reset_and_hazards.md R880). -/
def chargeBlock (q : Access) : List Reg → Word → State → State
  | [], _, s => s
  | _ :: rs, a, s => chargeBlock .seq rs (a + 4) (s.chargeData .word a q)

/-- Write loaded registers to a mode's bank; r15 is left to the branch. -/
def setLoaded (m : BitVec 5) : List (Reg × Word) → State → State
  | [], s => s
  | rv :: rvs, s => setLoaded m rvs (s.setBankedReg m rv.1 rv.2)

/-- The value loaded for r15, if the list has it. -/
def loadedPc : List (Reg × Word) → Option Word
  | [] => none
  | rv :: rvs => if rv.1 = 15 then some rv.2 else loadedPc rvs

/-- The writeback of a block load: none when the base is in the list, whose loaded value wins (R381, R385), in a
user-bank form too, where it is the User bank's register of that name that is loaded (R386; notes/assumptions/37). -/
def loadBase (wback : Bool) (rn : Reg) (inList : Bool) (v : Word) : AddrOut :=
  { addr := v, base := rn, wback := if wback && !inList then some v else none }

/-- LDM: all words are read, then the base is written back, then the registers. `user` loads the User bank (R386);
`restore` is a PSR restore with the loaded pc (R385). -/
def blockLoad (wback user restore : Bool) (rn : Reg) (inList : Bool) (b : BlockOut) (s : State) : Result :=
  let vals := blockValues s b.regs b.first
  let o := loadBase wback rn inList b.wback
  let s1 := (chargeBlock .nonseq b.regs b.first (s.chargeCode .seq)).charge 1
  let s2 := setLoaded (if user then modeUsr else s.cpsr.m) vals (writeBase o s1)
  match loadedPc vals with
  | none => .next (finishBase o s2)
  | some v => if restore then andThen s2.psrRestore fun s3 => .next (s3.branchTo v) else .next (s2.branchTo v)

/-- A register as STM stores it: r15 as pc + 12, another from the User bank or the current mode's (R384, R386); a banked
base in the list of a user-bank form is the User bank's register too (notes/assumptions/37). r15 is that pc + 12 as a base
with write-back too, lowest in the list or not (notes/assumptions/12). -/
def blockSource (user : Bool) (r : Reg) (s : State) : Word :=
  if r = 15 then s.pcFar else s.bankedReg (if user then modeUsr else s.cpsr.m) r

/-- The stores of STM in order; `o` is written back after the first (R382). -/
def blockStores (user : Bool) (o : AddrOut) (q : Access) : List Reg → Word → State → State
  | [], _, s => s
  | r :: rs, a, s =>
    blockStores user { o with wback := none } .seq rs (a + 4)
      (writeBase o ((s.chargeData .word a q).store .word a (blockSource user r s)))

/-- STM (R382, R384, R386). -/
def blockStore (wback user : Bool) (rn : Reg) (b : BlockOut) (s : State) : Result :=
  let o : AddrOut := { addr := b.first, base := rn, wback := if wback then some b.wback else none }
  .next (finishBase o (blockStores user o .nonseq b.regs b.first (s.chargeCode .nonseq)))

/-- STM (R382 to R384, R386). -/
def execArmStm (cond : Cond) (p u s w : Bool) (rn : Reg) (list : BitVec 16) (st : State) : Result :=
  whenCond cond st fun st => blockStore w s rn (blockAddr p u (st.readReg rn) list) st

/-- LDM (R381, R383, R385, R386). -/
def execArmLdm (cond : Cond) (p u s w : Bool) (rn : Reg) (list : BitVec 16) (st : State) : Result :=
  whenCond cond st fun st =>
    blockLoad w (s && !list.getLsbD 15) (s && list.getLsbD 15) rn (list.getLsbD rn.val)
      (blockAddr p u (st.readReg rn) list) st

end Sys2Proof.Machine
end

