-- ==== Sys2Proof/Machine/ThumbMem.lean ====
section
/-! DEFINITION. Thumb loads, stores, address generation and stack operations (spec/45_thumb_loadstore.md). Misaligned
loads rotate or sign-extend as the ARM forms do. -/

namespace Sys2Proof.Machine

/-- The base of a PC-relative form: pc + 4 with bit 1 cleared (R470, R487). -/
def State.pcBase (s : State) : Word := s.pcAhead &&& 0xFFFFFFFC

/-- Four times a Thumb word offset. -/
def wordOffset {n : Nat} (off : BitVec n) : Word := off.zeroExtend 32 * 4

/-- A load of a low register. -/
def thumbLoad (w : Width) (rd : LowReg) (a v : Word) (s : State) : Result :=
  .next ((chargeLoad w a s).writeResult (lowReg rd) v)

/-- A store of a low register. -/
def thumbStore (w : Width) (rd : LowReg) (a : Word) (s : State) : Result :=
  .next ((chargeStore w a s).store w a (s.readReg (lowReg rd))).advance

/-- The register-offset address of formats 7 and 8. -/
def thumbRegAddr (s : State) (ro rb : LowReg) : Word := s.readReg (lowReg rb) + s.readReg (lowReg ro)

/-- The immediate-offset address of formats 9 and 10: off5 in units of the transfer width. -/
def thumbImmAddr (s : State) (w : Width) (off : BitVec 5) (rb : LowReg) : Word :=
  s.readReg (lowReg rb) + off.zeroExtend 32 * BitVec.ofNat 32 w.bytes

/-- The SP-relative address of formats 11 and 12. -/
def thumbSpAddr (s : State) (word : BitVec 8) : Word := s.readReg 13 + wordOffset word

/-- LDR Rd, [PC, #word8 * 4] (R470). -/
def execThumbLdrPc (rd : LowReg) (word : BitVec 8) (s : State) : Result :=
  let a := s.pcBase + wordOffset word
  thumbLoad .word rd a (s.load .word a) s

/-- STR Rd, [Rb, Ro] (R471). -/
def execThumbStrReg (ro rb rd : LowReg) (s : State) : Result :=
  thumbStore .word rd (thumbRegAddr s ro rb) s

/-- STRB Rd, [Rb, Ro] (R472). -/
def execThumbStrbReg (ro rb rd : LowReg) (s : State) : Result :=
  thumbStore .byte rd (thumbRegAddr s ro rb) s

/-- LDR Rd, [Rb, Ro] (R473). -/
def execThumbLdrReg (ro rb rd : LowReg) (s : State) : Result :=
  let a := thumbRegAddr s ro rb
  thumbLoad .word rd a (loadWordValue s a) s

/-- LDRB Rd, [Rb, Ro] (R474). -/
def execThumbLdrbReg (ro rb rd : LowReg) (s : State) : Result :=
  let a := thumbRegAddr s ro rb
  thumbLoad .byte rd a (loadByteValue s a) s

/-- STRH Rd, [Rb, Ro] (R475). -/
def execThumbStrhReg (ro rb rd : LowReg) (s : State) : Result :=
  thumbStore .half rd (thumbRegAddr s ro rb) s

/-- LDSB Rd, [Rb, Ro] (R476). -/
def execThumbLdsbReg (ro rb rd : LowReg) (s : State) : Result :=
  let a := thumbRegAddr s ro rb
  thumbLoad .byte rd a (loadSignedByteValue s a) s

/-- LDRH Rd, [Rb, Ro] (R477). -/
def execThumbLdrhReg (ro rb rd : LowReg) (s : State) : Result :=
  let a := thumbRegAddr s ro rb
  thumbLoad .half rd a (loadHalfValue s a) s

/-- LDSH Rd, [Rb, Ro] (R478). -/
def execThumbLdshReg (ro rb rd : LowReg) (s : State) : Result :=
  let a := thumbRegAddr s ro rb
  thumbLoad .half rd a (loadSignedHalfValue s a) s

/-- STR Rd, [Rb, #off5] (R479). -/
def execThumbStrImm (off : BitVec 5) (rb rd : LowReg) (s : State) : Result :=
  thumbStore .word rd (thumbImmAddr s .word off rb) s

/-- STRB Rd, [Rb, #off5] (R481). -/
def execThumbStrbImm (off : BitVec 5) (rb rd : LowReg) (s : State) : Result :=
  thumbStore .byte rd (thumbImmAddr s .byte off rb) s

/-- STRH Rd, [Rb, #off5] (R483). -/
def execThumbStrhImm (off : BitVec 5) (rb rd : LowReg) (s : State) : Result :=
  thumbStore .half rd (thumbImmAddr s .half off rb) s

/-- LDR Rd, [Rb, #off5] (R480). -/
def execThumbLdrImm (off : BitVec 5) (rb rd : LowReg) (s : State) : Result :=
  let a := thumbImmAddr s .word off rb
  thumbLoad .word rd a (loadWordValue s a) s

/-- LDRB Rd, [Rb, #off5] (R482). -/
def execThumbLdrbImm (off : BitVec 5) (rb rd : LowReg) (s : State) : Result :=
  let a := thumbImmAddr s .byte off rb
  thumbLoad .byte rd a (loadByteValue s a) s

/-- LDRH Rd, [Rb, #off5] (R484). -/
def execThumbLdrhImm (off : BitVec 5) (rb rd : LowReg) (s : State) : Result :=
  let a := thumbImmAddr s .half off rb
  thumbLoad .half rd a (loadHalfValue s a) s

/-- STR Rd, [SP, #word8 * 4] (R485). -/
def execThumbStrSp (rd : LowReg) (word : BitVec 8) (s : State) : Result :=
  thumbStore .word rd (thumbSpAddr s word) s

/-- LDR Rd, [SP, #word8 * 4] (R486). -/
def execThumbLdrSp (rd : LowReg) (word : BitVec 8) (s : State) : Result :=
  let a := thumbSpAddr s word
  thumbLoad .word rd a (loadWordValue s a) s

/-- ADD Rd, PC, #word8 * 4 (R487). -/
def execThumbAddPc (rd : LowReg) (word : BitVec 8) (s : State) : Result :=
  .next ((s.chargeCode .seq).writeResult (lowReg rd) (s.pcBase + wordOffset word))

/-- ADD Rd, SP, #word8 * 4 (R488). -/
def execThumbAddSp (rd : LowReg) (word : BitVec 8) (s : State) : Result :=
  .next ((s.chargeCode .seq).writeResult (lowReg rd) (thumbSpAddr s word))

/-- ADD SP, #sword7 * 4 (R489). -/
def execThumbIncSp (word : BitVec 7) (s : State) : Result :=
  .next ((s.chargeCode .seq).writeResult 13 (s.readReg 13 + wordOffset word))

/-- SUB SP, #sword7 * 4 (R490). -/
def execThumbDecSp (word : BitVec 7) (s : State) : Result :=
  .next ((s.chargeCode .seq).writeResult 13 (s.readReg 13 - wordOffset word))

/-- PUSH (R491, R495): STMDB r13! of the list and, with R, r14. -/
def execThumbPush (r : Bool) (list : BitVec 8) (s : State) : Result :=
  blockStore true false 13 (blockAddr true false (s.readReg 13) (thumbList list r 14)) s

/-- POP (R492, R495): LDMIA r13! of the list and, with R, r15. -/
def execThumbPop (r : Bool) (list : BitVec 8) (s : State) : Result :=
  blockLoad true false false 13 false (blockAddr false true (s.readReg 13) (thumbList list r 15)) s

/-- STMIA Rb! (R493, R495). -/
def execThumbStmia (rb : LowReg) (list : BitVec 8) (s : State) : Result :=
  blockStore true false (lowReg rb) (blockAddr false true (s.readReg (lowReg rb)) (thumbList list false 0)) s

/-- LDMIA Rb! (R494, R495). -/
def execThumbLdmia (rb : LowReg) (list : BitVec 8) (s : State) : Result :=
  blockLoad true false false (lowReg rb) (list.getLsbD rb.val)
    (blockAddr false true (s.readReg (lowReg rb)) (thumbList list false 0)) s

end Sys2Proof.Machine
end

