-- ==== Sys2Proof/Machine/Dispatch.lean ====
section
/-! DEFINITION. One arm per constructor of Instr, in the order of spec/opcode_table.json: each is one call of that
instruction's meaning. -/

namespace Sys2Proof.Machine

def exec (i : Instr) (s : State) : Host.Outcome State Fault Refusal :=
  match i with
  | .armBx cond rm => Sys2Proof.Machine.execArmBx cond rm s
  | .armMul cond b rd rs rm => Sys2Proof.Machine.execArmMul cond b rd rs rm s
  | .armMla cond b rd rn rs rm => Sys2Proof.Machine.execArmMla cond b rd rn rs rm s
  | .armUmull cond b rdHi rdLo rs rm => Sys2Proof.Machine.execArmUmull cond b rdHi rdLo rs rm s
  | .armUmlal cond b rdHi rdLo rs rm => Sys2Proof.Machine.execArmUmlal cond b rdHi rdLo rs rm s
  | .armSmull cond b rdHi rdLo rs rm => Sys2Proof.Machine.execArmSmull cond b rdHi rdLo rs rm s
  | .armSmlal cond b rdHi rdLo rs rm => Sys2Proof.Machine.execArmSmlal cond b rdHi rdLo rs rm s
  | .armSwp cond rn rd rm => Sys2Proof.Machine.execArmSwp cond rn rd rm s
  | .armSwpb cond rn rd rm => Sys2Proof.Machine.execArmSwpb cond rn rd rm s
  | .armStrh cond m rd => Sys2Proof.Machine.execArmStrh cond m rd s
  | .armLdrh cond m rd => Sys2Proof.Machine.execArmLdrh cond m rd s
  | .armLdrsb cond m rd => Sys2Proof.Machine.execArmLdrsb cond m rd s
  | .armLdrsh cond m rd => Sys2Proof.Machine.execArmLdrsh cond m rd s
  | .armUndefSignedStore cond bits => Sys2Proof.Machine.execArmUndefSignedStore cond bits s
  | .armUndefMulSpace cond bits => Sys2Proof.Machine.execArmUndefMulSpace cond bits s
  | .armMrs cond r rd => Sys2Proof.Machine.execArmMrs cond r rd s
  | .armMsrReg cond r mask rm => Sys2Proof.Machine.execArmMsrReg cond r mask rm s
  | .armMsrImm cond r mask rot imm => Sys2Proof.Machine.execArmMsrImm cond r mask rot imm s
  | .armUndefControl cond bits => Sys2Proof.Machine.execArmUndefControl cond bits s
  | .armUndefTestImm cond bits => Sys2Proof.Machine.execArmUndefTestImm cond bits s
  | .armAndImm cond b rn rd rot imm => Sys2Proof.Machine.execArmAndImm cond b rn rd rot imm s
  | .armAndShift cond b rn rd amt sh rm => Sys2Proof.Machine.execArmAndShift cond b rn rd amt sh rm s
  | .armAndReg cond b rn rd rs sh rm => Sys2Proof.Machine.execArmAndReg cond b rn rd rs sh rm s
  | .armEorImm cond b rn rd rot imm => Sys2Proof.Machine.execArmEorImm cond b rn rd rot imm s
  | .armEorShift cond b rn rd amt sh rm => Sys2Proof.Machine.execArmEorShift cond b rn rd amt sh rm s
  | .armEorReg cond b rn rd rs sh rm => Sys2Proof.Machine.execArmEorReg cond b rn rd rs sh rm s
  | .armSubImm cond b rn rd rot imm => Sys2Proof.Machine.execArmSubImm cond b rn rd rot imm s
  | .armSubShift cond b rn rd amt sh rm => Sys2Proof.Machine.execArmSubShift cond b rn rd amt sh rm s
  | .armSubReg cond b rn rd rs sh rm => Sys2Proof.Machine.execArmSubReg cond b rn rd rs sh rm s
  | .armRsbImm cond b rn rd rot imm => Sys2Proof.Machine.execArmRsbImm cond b rn rd rot imm s
  | .armRsbShift cond b rn rd amt sh rm => Sys2Proof.Machine.execArmRsbShift cond b rn rd amt sh rm s
  | .armRsbReg cond b rn rd rs sh rm => Sys2Proof.Machine.execArmRsbReg cond b rn rd rs sh rm s
  | .armAddImm cond b rn rd rot imm => Sys2Proof.Machine.execArmAddImm cond b rn rd rot imm s
  | .armAddShift cond b rn rd amt sh rm => Sys2Proof.Machine.execArmAddShift cond b rn rd amt sh rm s
  | .armAddReg cond b rn rd rs sh rm => Sys2Proof.Machine.execArmAddReg cond b rn rd rs sh rm s
  | .armAdcImm cond b rn rd rot imm => Sys2Proof.Machine.execArmAdcImm cond b rn rd rot imm s
  | .armAdcShift cond b rn rd amt sh rm => Sys2Proof.Machine.execArmAdcShift cond b rn rd amt sh rm s
  | .armAdcReg cond b rn rd rs sh rm => Sys2Proof.Machine.execArmAdcReg cond b rn rd rs sh rm s
  | .armSbcImm cond b rn rd rot imm => Sys2Proof.Machine.execArmSbcImm cond b rn rd rot imm s
  | .armSbcShift cond b rn rd amt sh rm => Sys2Proof.Machine.execArmSbcShift cond b rn rd amt sh rm s
  | .armSbcReg cond b rn rd rs sh rm => Sys2Proof.Machine.execArmSbcReg cond b rn rd rs sh rm s
  | .armRscImm cond b rn rd rot imm => Sys2Proof.Machine.execArmRscImm cond b rn rd rot imm s
  | .armRscShift cond b rn rd amt sh rm => Sys2Proof.Machine.execArmRscShift cond b rn rd amt sh rm s
  | .armRscReg cond b rn rd rs sh rm => Sys2Proof.Machine.execArmRscReg cond b rn rd rs sh rm s
  | .armTstImm cond rn rot imm => Sys2Proof.Machine.execArmTstImm cond rn rot imm s
  | .armTstShift cond rn amt sh rm => Sys2Proof.Machine.execArmTstShift cond rn amt sh rm s
  | .armTstReg cond rn rs sh rm => Sys2Proof.Machine.execArmTstReg cond rn rs sh rm s
  | .armTeqImm cond rn rot imm => Sys2Proof.Machine.execArmTeqImm cond rn rot imm s
  | .armTeqShift cond rn amt sh rm => Sys2Proof.Machine.execArmTeqShift cond rn amt sh rm s
  | .armTeqReg cond rn rs sh rm => Sys2Proof.Machine.execArmTeqReg cond rn rs sh rm s
  | .armCmpImm cond rn rot imm => Sys2Proof.Machine.execArmCmpImm cond rn rot imm s
  | .armCmpShift cond rn amt sh rm => Sys2Proof.Machine.execArmCmpShift cond rn amt sh rm s
  | .armCmpReg cond rn rs sh rm => Sys2Proof.Machine.execArmCmpReg cond rn rs sh rm s
  | .armCmnImm cond rn rot imm => Sys2Proof.Machine.execArmCmnImm cond rn rot imm s
  | .armCmnShift cond rn amt sh rm => Sys2Proof.Machine.execArmCmnShift cond rn amt sh rm s
  | .armCmnReg cond rn rs sh rm => Sys2Proof.Machine.execArmCmnReg cond rn rs sh rm s
  | .armOrrImm cond b rn rd rot imm => Sys2Proof.Machine.execArmOrrImm cond b rn rd rot imm s
  | .armOrrShift cond b rn rd amt sh rm => Sys2Proof.Machine.execArmOrrShift cond b rn rd amt sh rm s
  | .armOrrReg cond b rn rd rs sh rm => Sys2Proof.Machine.execArmOrrReg cond b rn rd rs sh rm s
  | .armMovImm cond b rd rot imm => Sys2Proof.Machine.execArmMovImm cond b rd rot imm s
  | .armMovShift cond b rd amt sh rm => Sys2Proof.Machine.execArmMovShift cond b rd amt sh rm s
  | .armMovReg cond b rd rs sh rm => Sys2Proof.Machine.execArmMovReg cond b rd rs sh rm s
  | .armBicImm cond b rn rd rot imm => Sys2Proof.Machine.execArmBicImm cond b rn rd rot imm s
  | .armBicShift cond b rn rd amt sh rm => Sys2Proof.Machine.execArmBicShift cond b rn rd amt sh rm s
  | .armBicReg cond b rn rd rs sh rm => Sys2Proof.Machine.execArmBicReg cond b rn rd rs sh rm s
  | .armMvnImm cond b rd rot imm => Sys2Proof.Machine.execArmMvnImm cond b rd rot imm s
  | .armMvnShift cond b rd amt sh rm => Sys2Proof.Machine.execArmMvnShift cond b rd amt sh rm s
  | .armMvnReg cond b rd rs sh rm => Sys2Proof.Machine.execArmMvnReg cond b rd rs sh rm s
  | .armUndefMedia cond bits => Sys2Proof.Machine.execArmUndefMedia cond bits s
  | .armStrPre cond w m rd => Sys2Proof.Machine.execArmStrPre cond w m rd s
  | .armStrPost cond m rd => Sys2Proof.Machine.execArmStrPost cond m rd s
  | .armLdrPre cond w m rd => Sys2Proof.Machine.execArmLdrPre cond w m rd s
  | .armLdrPost cond m rd => Sys2Proof.Machine.execArmLdrPost cond m rd s
  | .armStrbPre cond w m rd => Sys2Proof.Machine.execArmStrbPre cond w m rd s
  | .armStrbPost cond m rd => Sys2Proof.Machine.execArmStrbPost cond m rd s
  | .armLdrbPre cond w m rd => Sys2Proof.Machine.execArmLdrbPre cond w m rd s
  | .armLdrbPost cond m rd => Sys2Proof.Machine.execArmLdrbPost cond m rd s
  | .armStrt cond m rd => Sys2Proof.Machine.execArmStrt cond m rd s
  | .armLdrt cond m rd => Sys2Proof.Machine.execArmLdrt cond m rd s
  | .armStrbt cond m rd => Sys2Proof.Machine.execArmStrbt cond m rd s
  | .armLdrbt cond m rd => Sys2Proof.Machine.execArmLdrbt cond m rd s
  | .armStm cond p u b w rn list => Sys2Proof.Machine.execArmStm cond p u b w rn list s
  | .armLdm cond p u b w rn list => Sys2Proof.Machine.execArmLdm cond p u b w rn list s
  | .armB cond off => Sys2Proof.Machine.execArmB cond off s
  | .armBl cond off => Sys2Proof.Machine.execArmBl cond off s
  | .armStc cond p u n w rn crd cp off => Sys2Proof.Machine.execArmStc cond p u n w rn crd cp off s
  | .armLdc cond p u n w rn crd cp off => Sys2Proof.Machine.execArmLdc cond p u n w rn crd cp off s
  | .armCdp cond opc1 crn crd cp opc2 crm => Sys2Proof.Machine.execArmCdp cond opc1 crn crd cp opc2 crm s
  | .armMcr cond opc1 crn rd cp opc2 crm => Sys2Proof.Machine.execArmMcr cond opc1 crn rd cp opc2 crm s
  | .armMrc cond opc1 crn rd cp opc2 crm => Sys2Proof.Machine.execArmMrc cond opc1 crn rd cp opc2 crm s
  | .armSwi cond comment => Sys2Proof.Machine.execArmSwi cond comment s
  | .thumbLslImm off rs rd => Sys2Proof.Machine.execThumbLslImm off rs rd s
  | .thumbLsrImm off rs rd => Sys2Proof.Machine.execThumbLsrImm off rs rd s
  | .thumbAsrImm off rs rd => Sys2Proof.Machine.execThumbAsrImm off rs rd s
  | .thumbAddReg rn rs rd => Sys2Proof.Machine.execThumbAddReg rn rs rd s
  | .thumbSubReg rn rs rd => Sys2Proof.Machine.execThumbSubReg rn rs rd s
  | .thumbAddImm3 imm rs rd => Sys2Proof.Machine.execThumbAddImm3 imm rs rd s
  | .thumbSubImm3 imm rs rd => Sys2Proof.Machine.execThumbSubImm3 imm rs rd s
  | .thumbMovImm rd imm => Sys2Proof.Machine.execThumbMovImm rd imm s
  | .thumbCmpImm rd imm => Sys2Proof.Machine.execThumbCmpImm rd imm s
  | .thumbAddImm8 rd imm => Sys2Proof.Machine.execThumbAddImm8 rd imm s
  | .thumbSubImm8 rd imm => Sys2Proof.Machine.execThumbSubImm8 rd imm s
  | .thumbAnd rs rd => Sys2Proof.Machine.execThumbAnd rs rd s
  | .thumbEor rs rd => Sys2Proof.Machine.execThumbEor rs rd s
  | .thumbLslReg rs rd => Sys2Proof.Machine.execThumbLslReg rs rd s
  | .thumbLsrReg rs rd => Sys2Proof.Machine.execThumbLsrReg rs rd s
  | .thumbAsrReg rs rd => Sys2Proof.Machine.execThumbAsrReg rs rd s
  | .thumbAdc rs rd => Sys2Proof.Machine.execThumbAdc rs rd s
  | .thumbSbc rs rd => Sys2Proof.Machine.execThumbSbc rs rd s
  | .thumbRor rs rd => Sys2Proof.Machine.execThumbRor rs rd s
  | .thumbTst rs rd => Sys2Proof.Machine.execThumbTst rs rd s
  | .thumbNeg rs rd => Sys2Proof.Machine.execThumbNeg rs rd s
  | .thumbCmp rs rd => Sys2Proof.Machine.execThumbCmp rs rd s
  | .thumbCmn rs rd => Sys2Proof.Machine.execThumbCmn rs rd s
  | .thumbOrr rs rd => Sys2Proof.Machine.execThumbOrr rs rd s
  | .thumbMul rs rd => Sys2Proof.Machine.execThumbMul rs rd s
  | .thumbBic rs rd => Sys2Proof.Machine.execThumbBic rs rd s
  | .thumbMvn rs rd => Sys2Proof.Machine.execThumbMvn rs rd s
  | .thumbAddHi rs rd => Sys2Proof.Machine.execThumbAddHi rs rd s
  | .thumbCmpHi rs rd => Sys2Proof.Machine.execThumbCmpHi rs rd s
  | .thumbMovHi rs rd => Sys2Proof.Machine.execThumbMovHi rs rd s
  | .thumbBx rs => Sys2Proof.Machine.execThumbBx rs s
  | .thumbLdrPc rd word => Sys2Proof.Machine.execThumbLdrPc rd word s
  | .thumbStrReg ro rb rd => Sys2Proof.Machine.execThumbStrReg ro rb rd s
  | .thumbStrbReg ro rb rd => Sys2Proof.Machine.execThumbStrbReg ro rb rd s
  | .thumbLdrReg ro rb rd => Sys2Proof.Machine.execThumbLdrReg ro rb rd s
  | .thumbLdrbReg ro rb rd => Sys2Proof.Machine.execThumbLdrbReg ro rb rd s
  | .thumbStrhReg ro rb rd => Sys2Proof.Machine.execThumbStrhReg ro rb rd s
  | .thumbLdsbReg ro rb rd => Sys2Proof.Machine.execThumbLdsbReg ro rb rd s
  | .thumbLdrhReg ro rb rd => Sys2Proof.Machine.execThumbLdrhReg ro rb rd s
  | .thumbLdshReg ro rb rd => Sys2Proof.Machine.execThumbLdshReg ro rb rd s
  | .thumbStrImm off rb rd => Sys2Proof.Machine.execThumbStrImm off rb rd s
  | .thumbLdrImm off rb rd => Sys2Proof.Machine.execThumbLdrImm off rb rd s
  | .thumbStrbImm off rb rd => Sys2Proof.Machine.execThumbStrbImm off rb rd s
  | .thumbLdrbImm off rb rd => Sys2Proof.Machine.execThumbLdrbImm off rb rd s
  | .thumbStrhImm off rb rd => Sys2Proof.Machine.execThumbStrhImm off rb rd s
  | .thumbLdrhImm off rb rd => Sys2Proof.Machine.execThumbLdrhImm off rb rd s
  | .thumbStrSp rd word => Sys2Proof.Machine.execThumbStrSp rd word s
  | .thumbLdrSp rd word => Sys2Proof.Machine.execThumbLdrSp rd word s
  | .thumbAddPc rd word => Sys2Proof.Machine.execThumbAddPc rd word s
  | .thumbAddSp rd word => Sys2Proof.Machine.execThumbAddSp rd word s
  | .thumbIncSp word => Sys2Proof.Machine.execThumbIncSp word s
  | .thumbDecSp word => Sys2Proof.Machine.execThumbDecSp word s
  | .thumbPush r list => Sys2Proof.Machine.execThumbPush r list s
  | .thumbPop r list => Sys2Proof.Machine.execThumbPop r list s
  | .thumbUndef1011 bits => Sys2Proof.Machine.execThumbUndef1011 bits s
  | .thumbStmia rb list => Sys2Proof.Machine.execThumbStmia rb list s
  | .thumbLdmia rb list => Sys2Proof.Machine.execThumbLdmia rb list s
  | .thumbSwi value => Sys2Proof.Machine.execThumbSwi value s
  | .thumbUndefCond bits => Sys2Proof.Machine.execThumbUndefCond bits s
  | .thumbBcond c off => Sys2Proof.Machine.execThumbBcond c off s
  | .thumbB off => Sys2Proof.Machine.execThumbB off s
  | .thumbUndefBlx bits => Sys2Proof.Machine.execThumbUndefBlx bits s
  | .thumbBlPrefix off => Sys2Proof.Machine.execThumbBlPrefix off s
  | .thumbBlSuffix off => Sys2Proof.Machine.execThumbBlSuffix off s

end Sys2Proof.Machine
end

