-- ==== Sys2Proof/WellFormed.lean ====
section
/-! DEFINITION. Which terms of `Instr` stand for an encoding: an undefined encoding's bits lie in the space its row
names (30_encoding.md R202, R210, R212, R213), and a Thumb conditional branch has a condition below 1110. The other
fields' types admit exactly the encoding's values. -/

namespace Sys2Proof

/-- Bits lo+n-1 down to lo of a bit vector, as a number. -/
def bitsOf {m : Nat} (b : BitVec m) (lo n : Nat) : Nat := b.toNat / 2 ^ lo % 2 ^ n

/-- Bits 27:25 = 000, bit 7 = bit 6 = bit 4 = 1 and L = 0 (R202 row 7). -/
abbrev undefSignedStoreOk (b : BitVec 28) : Prop :=
  bitsOf b 25 3 = 0 ∧ bitsOf b 20 1 = 0 ∧ bitsOf b 6 2 = 3 ∧ bitsOf b 4 1 = 1

/-- Bits 27:25 = 000, bits 7:4 = 1001, and neither a multiply nor a swap (R202 row 8). -/
abbrev undefMulSpaceOk (b : BitVec 28) : Prop :=
  bitsOf b 25 3 = 0 ∧ bitsOf b 4 4 = 9 ∧ bitsOf b 22 6 ≠ 0 ∧ bitsOf b 23 5 ≠ 1 ∧
    ¬(bitsOf b 23 5 = 2 ∧ bitsOf b 20 2 = 0)

/-- Bits 27:23 = 00010 and bit 20 = 0, and none of BX, the transfers of rows 4 to 8, MRS and MSR (R202 row 12). -/
abbrev undefControlOk (b : BitVec 28) : Prop :=
  bitsOf b 23 5 = 2 ∧ bitsOf b 20 1 = 0 ∧ ¬(bitsOf b 7 1 = 1 ∧ bitsOf b 4 1 = 1) ∧ bitsOf b 4 4 ≠ 0 ∧
    ¬(bitsOf b 20 8 = 0x12 ∧ bitsOf b 4 4 = 1)

/-- Bits 27:23 = 00110 and bits 21:20 = 00 (R202 row 13). -/
abbrev undefTestImmOk (b : BitVec 28) : Prop := bitsOf b 23 5 = 6 ∧ bitsOf b 20 2 = 0

/-- Bits 27:25 = 011 and bit 4 = 1 (R202 row 15). -/
abbrev undefMediaOk (b : BitVec 28) : Prop := bitsOf b 25 3 = 3 ∧ bitsOf b 4 1 = 1

/-- A 1011 pattern that is neither format 13 nor format 14 (R210 row 15): bits 11:0 of the halfword. -/
abbrev undef1011Ok (b : BitVec 12) : Prop := bitsOf b 8 4 ≠ 0 ∧ bitsOf b 9 2 ≠ 2

/-- A format 16 condition is 0000 to 1101 (46_thumb_branch.md R500). -/
abbrev condBranchOk (c : Cond) : Prop := c ≠ .al ∧ c ≠ .nv

/-- The well-formed instructions. -/
def Instr.WellFormed : Instr → Prop
  | .armUndefSignedStore _ b => undefSignedStoreOk b
  | .armUndefMulSpace _ b => undefMulSpaceOk b
  | .armUndefControl _ b => undefControlOk b
  | .armUndefTestImm _ b => undefTestImmOk b
  | .armUndefMedia _ b => undefMediaOk b
  | .thumbUndef1011 b => undef1011Ok b
  | .thumbBcond c _ => condBranchOk c
  | .armBx ..
  | .armMul ..
  | .armMla ..
  | .armUmull ..
  | .armUmlal ..
  | .armSmull ..
  | .armSmlal ..
  | .armSwp ..
  | .armSwpb ..
  | .armStrh ..
  | .armLdrh ..
  | .armLdrsb ..
  | .armLdrsh ..
  | .armMrs ..
  | .armMsrReg ..
  | .armMsrImm ..
  | .armAndImm ..
  | .armAndShift ..
  | .armAndReg ..
  | .armEorImm ..
  | .armEorShift ..
  | .armEorReg ..
  | .armSubImm ..
  | .armSubShift ..
  | .armSubReg ..
  | .armRsbImm ..
  | .armRsbShift ..
  | .armRsbReg ..
  | .armAddImm ..
  | .armAddShift ..
  | .armAddReg ..
  | .armAdcImm ..
  | .armAdcShift ..
  | .armAdcReg ..
  | .armSbcImm ..
  | .armSbcShift ..
  | .armSbcReg ..
  | .armRscImm ..
  | .armRscShift ..
  | .armRscReg ..
  | .armTstImm ..
  | .armTstShift ..
  | .armTstReg ..
  | .armTeqImm ..
  | .armTeqShift ..
  | .armTeqReg ..
  | .armCmpImm ..
  | .armCmpShift ..
  | .armCmpReg ..
  | .armCmnImm ..
  | .armCmnShift ..
  | .armCmnReg ..
  | .armOrrImm ..
  | .armOrrShift ..
  | .armOrrReg ..
  | .armMovImm ..
  | .armMovShift ..
  | .armMovReg ..
  | .armBicImm ..
  | .armBicShift ..
  | .armBicReg ..
  | .armMvnImm ..
  | .armMvnShift ..
  | .armMvnReg ..
  | .armStrPre ..
  | .armStrPost ..
  | .armLdrPre ..
  | .armLdrPost ..
  | .armStrbPre ..
  | .armStrbPost ..
  | .armLdrbPre ..
  | .armLdrbPost ..
  | .armStrt ..
  | .armLdrt ..
  | .armStrbt ..
  | .armLdrbt ..
  | .armStm ..
  | .armLdm ..
  | .armB ..
  | .armBl ..
  | .armStc ..
  | .armLdc ..
  | .armCdp ..
  | .armMcr ..
  | .armMrc ..
  | .armSwi ..
  | .thumbLslImm ..
  | .thumbLsrImm ..
  | .thumbAsrImm ..
  | .thumbAddReg ..
  | .thumbSubReg ..
  | .thumbAddImm3 ..
  | .thumbSubImm3 ..
  | .thumbMovImm ..
  | .thumbCmpImm ..
  | .thumbAddImm8 ..
  | .thumbSubImm8 ..
  | .thumbAnd ..
  | .thumbEor ..
  | .thumbLslReg ..
  | .thumbLsrReg ..
  | .thumbAsrReg ..
  | .thumbAdc ..
  | .thumbSbc ..
  | .thumbRor ..
  | .thumbTst ..
  | .thumbNeg ..
  | .thumbCmp ..
  | .thumbCmn ..
  | .thumbOrr ..
  | .thumbMul ..
  | .thumbBic ..
  | .thumbMvn ..
  | .thumbAddHi ..
  | .thumbCmpHi ..
  | .thumbMovHi ..
  | .thumbBx ..
  | .thumbLdrPc ..
  | .thumbStrReg ..
  | .thumbStrbReg ..
  | .thumbLdrReg ..
  | .thumbLdrbReg ..
  | .thumbStrhReg ..
  | .thumbLdsbReg ..
  | .thumbLdrhReg ..
  | .thumbLdshReg ..
  | .thumbStrImm ..
  | .thumbLdrImm ..
  | .thumbStrbImm ..
  | .thumbLdrbImm ..
  | .thumbStrhImm ..
  | .thumbLdrhImm ..
  | .thumbStrSp ..
  | .thumbLdrSp ..
  | .thumbAddPc ..
  | .thumbAddSp ..
  | .thumbIncSp ..
  | .thumbDecSp ..
  | .thumbPush ..
  | .thumbPop ..
  | .thumbStmia ..
  | .thumbLdmia ..
  | .thumbSwi ..
  | .thumbUndefCond ..
  | .thumbB ..
  | .thumbUndefBlx ..
  | .thumbBlPrefix ..
  | .thumbBlSuffix .. => True

/-- The same as a check that runs. -/
def Instr.wellFormed : Instr → Bool
  | .armUndefSignedStore _ b => decide (undefSignedStoreOk b)
  | .armUndefMulSpace _ b => decide (undefMulSpaceOk b)
  | .armUndefControl _ b => decide (undefControlOk b)
  | .armUndefTestImm _ b => decide (undefTestImmOk b)
  | .armUndefMedia _ b => decide (undefMediaOk b)
  | .thumbUndef1011 b => decide (undef1011Ok b)
  | .thumbBcond c _ => decide (condBranchOk c)
  | .armBx ..
  | .armMul ..
  | .armMla ..
  | .armUmull ..
  | .armUmlal ..
  | .armSmull ..
  | .armSmlal ..
  | .armSwp ..
  | .armSwpb ..
  | .armStrh ..
  | .armLdrh ..
  | .armLdrsb ..
  | .armLdrsh ..
  | .armMrs ..
  | .armMsrReg ..
  | .armMsrImm ..
  | .armAndImm ..
  | .armAndShift ..
  | .armAndReg ..
  | .armEorImm ..
  | .armEorShift ..
  | .armEorReg ..
  | .armSubImm ..
  | .armSubShift ..
  | .armSubReg ..
  | .armRsbImm ..
  | .armRsbShift ..
  | .armRsbReg ..
  | .armAddImm ..
  | .armAddShift ..
  | .armAddReg ..
  | .armAdcImm ..
  | .armAdcShift ..
  | .armAdcReg ..
  | .armSbcImm ..
  | .armSbcShift ..
  | .armSbcReg ..
  | .armRscImm ..
  | .armRscShift ..
  | .armRscReg ..
  | .armTstImm ..
  | .armTstShift ..
  | .armTstReg ..
  | .armTeqImm ..
  | .armTeqShift ..
  | .armTeqReg ..
  | .armCmpImm ..
  | .armCmpShift ..
  | .armCmpReg ..
  | .armCmnImm ..
  | .armCmnShift ..
  | .armCmnReg ..
  | .armOrrImm ..
  | .armOrrShift ..
  | .armOrrReg ..
  | .armMovImm ..
  | .armMovShift ..
  | .armMovReg ..
  | .armBicImm ..
  | .armBicShift ..
  | .armBicReg ..
  | .armMvnImm ..
  | .armMvnShift ..
  | .armMvnReg ..
  | .armStrPre ..
  | .armStrPost ..
  | .armLdrPre ..
  | .armLdrPost ..
  | .armStrbPre ..
  | .armStrbPost ..
  | .armLdrbPre ..
  | .armLdrbPost ..
  | .armStrt ..
  | .armLdrt ..
  | .armStrbt ..
  | .armLdrbt ..
  | .armStm ..
  | .armLdm ..
  | .armB ..
  | .armBl ..
  | .armStc ..
  | .armLdc ..
  | .armCdp ..
  | .armMcr ..
  | .armMrc ..
  | .armSwi ..
  | .thumbLslImm ..
  | .thumbLsrImm ..
  | .thumbAsrImm ..
  | .thumbAddReg ..
  | .thumbSubReg ..
  | .thumbAddImm3 ..
  | .thumbSubImm3 ..
  | .thumbMovImm ..
  | .thumbCmpImm ..
  | .thumbAddImm8 ..
  | .thumbSubImm8 ..
  | .thumbAnd ..
  | .thumbEor ..
  | .thumbLslReg ..
  | .thumbLsrReg ..
  | .thumbAsrReg ..
  | .thumbAdc ..
  | .thumbSbc ..
  | .thumbRor ..
  | .thumbTst ..
  | .thumbNeg ..
  | .thumbCmp ..
  | .thumbCmn ..
  | .thumbOrr ..
  | .thumbMul ..
  | .thumbBic ..
  | .thumbMvn ..
  | .thumbAddHi ..
  | .thumbCmpHi ..
  | .thumbMovHi ..
  | .thumbBx ..
  | .thumbLdrPc ..
  | .thumbStrReg ..
  | .thumbStrbReg ..
  | .thumbLdrReg ..
  | .thumbLdrbReg ..
  | .thumbStrhReg ..
  | .thumbLdsbReg ..
  | .thumbLdrhReg ..
  | .thumbLdshReg ..
  | .thumbStrImm ..
  | .thumbLdrImm ..
  | .thumbStrbImm ..
  | .thumbLdrbImm ..
  | .thumbStrhImm ..
  | .thumbLdrhImm ..
  | .thumbStrSp ..
  | .thumbLdrSp ..
  | .thumbAddPc ..
  | .thumbAddSp ..
  | .thumbIncSp ..
  | .thumbDecSp ..
  | .thumbPush ..
  | .thumbPop ..
  | .thumbStmia ..
  | .thumbLdmia ..
  | .thumbSwi ..
  | .thumbUndefCond ..
  | .thumbB ..
  | .thumbUndefBlx ..
  | .thumbBlPrefix ..
  | .thumbBlSuffix .. => true

end Sys2Proof
end

