-- ==== Sys2Proof/Decode.lean ====
section
/-! DEFINITION. The decoder, total on words (30_encoding.md R202 and R210: the first row that holds), the decoder on
bytes, the encoder written from the same formats (R201, R209), and the word interface of spec/opcode_table.json. -/

namespace Sys2Proof

/-- Bits lo+n-1 down to lo of w (00_scope.md R10). -/
def field (w lo n : Nat) : Nat := w / 2 ^ lo % 2 ^ n

/-- The bits of w from lo up. -/
def fieldsFrom (w lo : Nat) : Nat := w / 2 ^ lo

/-- Bit i of w. -/
def bitAt (w i : Nat) : Bool := decide (field w i 1 = 1)

/-- A four-bit register field. -/
def regAt (w lo : Nat) : Reg := Fin.ofNat 16 (fieldsFrom w lo)

/-- A three-bit register field. -/
def lowAt (w lo : Nat) : LowReg := Fin.ofNat 8 (fieldsFrom w lo)

/-- The Rd of Thumb format 5, H1 : bits 2:0 (44_thumb_alu.md R458). -/
def hiRdAt (w : Nat) : Reg := Fin.ofNat 16 (field w 7 1 * 8 + field w 0 3)

/-- The condition a four-bit number names (30_encoding.md R204). -/
def Cond.ofNumber : Nat → Cond
  | 0 => .eq | 1 => .ne | 2 => .cs | 3 => .cc | 4 => .mi | 5 => .pl | 6 => .vs | 7 => .vc
  | 8 => .hi | 9 => .ls | 10 => .ge | 11 => .lt | 12 => .gt | 13 => .le | 14 => .al | _ => .nv

/-- The number of a condition (30_encoding.md R204). -/
def Cond.number : Cond → Nat
  | .eq => 0 | .ne => 1 | .cs => 2 | .cc => 3 | .mi => 4 | .pl => 5 | .vs => 6 | .vc => 7
  | .hi => 8 | .ls => 9 | .ge => 10 | .lt => 11 | .gt => 12 | .le => 13 | .al => 14 | .nv => 15

/-- The shift type a two-bit number names (30_encoding.md R201). -/
def ShiftType.ofNumber : Nat → ShiftType
  | 0 => .lsl | 1 => .lsr | 2 => .asr | _ => .ror

/-- The number of a shift type. -/
def ShiftType.number : ShiftType → Nat
  | .lsl => 0 | .lsr => 1 | .asr => 2 | .ror => 3

/-- A condition field. -/
def condAt (w lo : Nat) : Cond := Cond.ofNumber (field w lo 4)

/-- The shift type field, bits 6:5. -/
def shiftAt (w : Nat) : ShiftType := ShiftType.ofNumber (field w 5 2)

/-- The mode 2 address fields: I (bit 25, 1 for a register), U, Rn and the offset (30_encoding.md R208). -/
def mode2At (w : Nat) : Mode2 where
  up := bitAt w 23
  rn := regAt w 16
  off :=
    if field w 25 1 = 1 then .reg (regAt w 0) (shiftAt w) (BitVec.ofNat 5 (fieldsFrom w 7))
    else .imm (BitVec.ofNat 12 (fieldsFrom w 0))

/-- The mode 3 address fields: P, U, I (bit 22, 1 for an immediate), W, Rn and the offset (30_encoding.md R208). -/
def mode3At (w : Nat) : Mode3 where
  pre := bitAt w 24
  up := bitAt w 23
  wback := bitAt w 21
  rn := regAt w 16
  off :=
    if field w 22 1 = 1 then .imm (BitVec.ofNat 8 (field w 8 4 * 16 + field w 0 4))
    else .reg (regAt w 0)

/-- R202 row 3: U is bit 22 and A bit 21. -/
def decodeMulLong (w : Nat) : Instr :=
  match field w 21 2 with
  | 0 => .armUmull (condAt w 28) (bitAt w 20) (regAt w 16) (regAt w 12) (regAt w 8) (regAt w 0)
  | 1 => .armUmlal (condAt w 28) (bitAt w 20) (regAt w 16) (regAt w 12) (regAt w 8) (regAt w 0)
  | 2 => .armSmull (condAt w 28) (bitAt w 20) (regAt w 16) (regAt w 12) (regAt w 8) (regAt w 0)
  | _ => .armSmlal (condAt w 28) (bitAt w 20) (regAt w 16) (regAt w 12) (regAt w 8) (regAt w 0)

/-- R202 row 14, immediate form: the opcode is bits 24:21. -/
def decodeDpImm (w : Nat) : Instr :=
  match field w 21 4 with
  | 0 => .armAndImm (condAt w 28) (bitAt w 20) (regAt w 16) (regAt w 12) (BitVec.ofNat 4 (fieldsFrom w 8)) (BitVec.ofNat 8 (fieldsFrom w 0))
  | 1 => .armEorImm (condAt w 28) (bitAt w 20) (regAt w 16) (regAt w 12) (BitVec.ofNat 4 (fieldsFrom w 8)) (BitVec.ofNat 8 (fieldsFrom w 0))
  | 2 => .armSubImm (condAt w 28) (bitAt w 20) (regAt w 16) (regAt w 12) (BitVec.ofNat 4 (fieldsFrom w 8)) (BitVec.ofNat 8 (fieldsFrom w 0))
  | 3 => .armRsbImm (condAt w 28) (bitAt w 20) (regAt w 16) (regAt w 12) (BitVec.ofNat 4 (fieldsFrom w 8)) (BitVec.ofNat 8 (fieldsFrom w 0))
  | 4 => .armAddImm (condAt w 28) (bitAt w 20) (regAt w 16) (regAt w 12) (BitVec.ofNat 4 (fieldsFrom w 8)) (BitVec.ofNat 8 (fieldsFrom w 0))
  | 5 => .armAdcImm (condAt w 28) (bitAt w 20) (regAt w 16) (regAt w 12) (BitVec.ofNat 4 (fieldsFrom w 8)) (BitVec.ofNat 8 (fieldsFrom w 0))
  | 6 => .armSbcImm (condAt w 28) (bitAt w 20) (regAt w 16) (regAt w 12) (BitVec.ofNat 4 (fieldsFrom w 8)) (BitVec.ofNat 8 (fieldsFrom w 0))
  | 7 => .armRscImm (condAt w 28) (bitAt w 20) (regAt w 16) (regAt w 12) (BitVec.ofNat 4 (fieldsFrom w 8)) (BitVec.ofNat 8 (fieldsFrom w 0))
  | 8 => .armTstImm (condAt w 28) (regAt w 16) (BitVec.ofNat 4 (fieldsFrom w 8)) (BitVec.ofNat 8 (fieldsFrom w 0))
  | 9 => .armTeqImm (condAt w 28) (regAt w 16) (BitVec.ofNat 4 (fieldsFrom w 8)) (BitVec.ofNat 8 (fieldsFrom w 0))
  | 10 => .armCmpImm (condAt w 28) (regAt w 16) (BitVec.ofNat 4 (fieldsFrom w 8)) (BitVec.ofNat 8 (fieldsFrom w 0))
  | 11 => .armCmnImm (condAt w 28) (regAt w 16) (BitVec.ofNat 4 (fieldsFrom w 8)) (BitVec.ofNat 8 (fieldsFrom w 0))
  | 12 => .armOrrImm (condAt w 28) (bitAt w 20) (regAt w 16) (regAt w 12) (BitVec.ofNat 4 (fieldsFrom w 8)) (BitVec.ofNat 8 (fieldsFrom w 0))
  | 13 => .armMovImm (condAt w 28) (bitAt w 20) (regAt w 12) (BitVec.ofNat 4 (fieldsFrom w 8)) (BitVec.ofNat 8 (fieldsFrom w 0))
  | 14 => .armBicImm (condAt w 28) (bitAt w 20) (regAt w 16) (regAt w 12) (BitVec.ofNat 4 (fieldsFrom w 8)) (BitVec.ofNat 8 (fieldsFrom w 0))
  | _ => .armMvnImm (condAt w 28) (bitAt w 20) (regAt w 12) (BitVec.ofNat 4 (fieldsFrom w 8)) (BitVec.ofNat 8 (fieldsFrom w 0))

/-- R202 row 14, register shifted by immediate: the opcode is bits 24:21. -/
def decodeDpShift (w : Nat) : Instr :=
  match field w 21 4 with
  | 0 => .armAndShift (condAt w 28) (bitAt w 20) (regAt w 16) (regAt w 12) (BitVec.ofNat 5 (fieldsFrom w 7)) (shiftAt w) (regAt w 0)
  | 1 => .armEorShift (condAt w 28) (bitAt w 20) (regAt w 16) (regAt w 12) (BitVec.ofNat 5 (fieldsFrom w 7)) (shiftAt w) (regAt w 0)
  | 2 => .armSubShift (condAt w 28) (bitAt w 20) (regAt w 16) (regAt w 12) (BitVec.ofNat 5 (fieldsFrom w 7)) (shiftAt w) (regAt w 0)
  | 3 => .armRsbShift (condAt w 28) (bitAt w 20) (regAt w 16) (regAt w 12) (BitVec.ofNat 5 (fieldsFrom w 7)) (shiftAt w) (regAt w 0)
  | 4 => .armAddShift (condAt w 28) (bitAt w 20) (regAt w 16) (regAt w 12) (BitVec.ofNat 5 (fieldsFrom w 7)) (shiftAt w) (regAt w 0)
  | 5 => .armAdcShift (condAt w 28) (bitAt w 20) (regAt w 16) (regAt w 12) (BitVec.ofNat 5 (fieldsFrom w 7)) (shiftAt w) (regAt w 0)
  | 6 => .armSbcShift (condAt w 28) (bitAt w 20) (regAt w 16) (regAt w 12) (BitVec.ofNat 5 (fieldsFrom w 7)) (shiftAt w) (regAt w 0)
  | 7 => .armRscShift (condAt w 28) (bitAt w 20) (regAt w 16) (regAt w 12) (BitVec.ofNat 5 (fieldsFrom w 7)) (shiftAt w) (regAt w 0)
  | 8 => .armTstShift (condAt w 28) (regAt w 16) (BitVec.ofNat 5 (fieldsFrom w 7)) (shiftAt w) (regAt w 0)
  | 9 => .armTeqShift (condAt w 28) (regAt w 16) (BitVec.ofNat 5 (fieldsFrom w 7)) (shiftAt w) (regAt w 0)
  | 10 => .armCmpShift (condAt w 28) (regAt w 16) (BitVec.ofNat 5 (fieldsFrom w 7)) (shiftAt w) (regAt w 0)
  | 11 => .armCmnShift (condAt w 28) (regAt w 16) (BitVec.ofNat 5 (fieldsFrom w 7)) (shiftAt w) (regAt w 0)
  | 12 => .armOrrShift (condAt w 28) (bitAt w 20) (regAt w 16) (regAt w 12) (BitVec.ofNat 5 (fieldsFrom w 7)) (shiftAt w) (regAt w 0)
  | 13 => .armMovShift (condAt w 28) (bitAt w 20) (regAt w 12) (BitVec.ofNat 5 (fieldsFrom w 7)) (shiftAt w) (regAt w 0)
  | 14 => .armBicShift (condAt w 28) (bitAt w 20) (regAt w 16) (regAt w 12) (BitVec.ofNat 5 (fieldsFrom w 7)) (shiftAt w) (regAt w 0)
  | _ => .armMvnShift (condAt w 28) (bitAt w 20) (regAt w 12) (BitVec.ofNat 5 (fieldsFrom w 7)) (shiftAt w) (regAt w 0)

/-- R202 row 14, register shifted by register: the opcode is bits 24:21. -/
def decodeDpReg (w : Nat) : Instr :=
  match field w 21 4 with
  | 0 => .armAndReg (condAt w 28) (bitAt w 20) (regAt w 16) (regAt w 12) (regAt w 8) (shiftAt w) (regAt w 0)
  | 1 => .armEorReg (condAt w 28) (bitAt w 20) (regAt w 16) (regAt w 12) (regAt w 8) (shiftAt w) (regAt w 0)
  | 2 => .armSubReg (condAt w 28) (bitAt w 20) (regAt w 16) (regAt w 12) (regAt w 8) (shiftAt w) (regAt w 0)
  | 3 => .armRsbReg (condAt w 28) (bitAt w 20) (regAt w 16) (regAt w 12) (regAt w 8) (shiftAt w) (regAt w 0)
  | 4 => .armAddReg (condAt w 28) (bitAt w 20) (regAt w 16) (regAt w 12) (regAt w 8) (shiftAt w) (regAt w 0)
  | 5 => .armAdcReg (condAt w 28) (bitAt w 20) (regAt w 16) (regAt w 12) (regAt w 8) (shiftAt w) (regAt w 0)
  | 6 => .armSbcReg (condAt w 28) (bitAt w 20) (regAt w 16) (regAt w 12) (regAt w 8) (shiftAt w) (regAt w 0)
  | 7 => .armRscReg (condAt w 28) (bitAt w 20) (regAt w 16) (regAt w 12) (regAt w 8) (shiftAt w) (regAt w 0)
  | 8 => .armTstReg (condAt w 28) (regAt w 16) (regAt w 8) (shiftAt w) (regAt w 0)
  | 9 => .armTeqReg (condAt w 28) (regAt w 16) (regAt w 8) (shiftAt w) (regAt w 0)
  | 10 => .armCmpReg (condAt w 28) (regAt w 16) (regAt w 8) (shiftAt w) (regAt w 0)
  | 11 => .armCmnReg (condAt w 28) (regAt w 16) (regAt w 8) (shiftAt w) (regAt w 0)
  | 12 => .armOrrReg (condAt w 28) (bitAt w 20) (regAt w 16) (regAt w 12) (regAt w 8) (shiftAt w) (regAt w 0)
  | 13 => .armMovReg (condAt w 28) (bitAt w 20) (regAt w 12) (regAt w 8) (shiftAt w) (regAt w 0)
  | 14 => .armBicReg (condAt w 28) (bitAt w 20) (regAt w 16) (regAt w 12) (regAt w 8) (shiftAt w) (regAt w 0)
  | _ => .armMvnReg (condAt w 28) (bitAt w 20) (regAt w 12) (regAt w 8) (shiftAt w) (regAt w 0)

/-- R202 row 16: P is bit 24, B bit 22, W bit 21, L bit 20; P = 0 with W = 1 is the T form. -/
def decodeSingle (w : Nat) : Instr :=
  if field w 24 1 = 1 then
    match field w 22 1, field w 20 1 with
    | 0, 0 => .armStrPre (condAt w 28) (bitAt w 21) (mode2At w) (regAt w 12)
    | 0, _ => .armLdrPre (condAt w 28) (bitAt w 21) (mode2At w) (regAt w 12)
    | _, 0 => .armStrbPre (condAt w 28) (bitAt w 21) (mode2At w) (regAt w 12)
    | _, _ => .armLdrbPre (condAt w 28) (bitAt w 21) (mode2At w) (regAt w 12)
  else if field w 21 1 = 0 then
    match field w 22 1, field w 20 1 with
    | 0, 0 => .armStrPost (condAt w 28) (mode2At w) (regAt w 12)
    | 0, _ => .armLdrPost (condAt w 28) (mode2At w) (regAt w 12)
    | _, 0 => .armStrbPost (condAt w 28) (mode2At w) (regAt w 12)
    | _, _ => .armLdrbPost (condAt w 28) (mode2At w) (regAt w 12)
  else
    match field w 22 1, field w 20 1 with
    | 0, 0 => .armStrt (condAt w 28) (mode2At w) (regAt w 12)
    | 0, _ => .armLdrt (condAt w 28) (mode2At w) (regAt w 12)
    | _, 0 => .armStrbt (condAt w 28) (mode2At w) (regAt w 12)
    | _, _ => .armLdrbt (condAt w 28) (mode2At w) (regAt w 12)

/-- The ARM decoder: the first row of 30_encoding.md R202 whose test holds. Each mask of that table is a union of whole
fields, and each test below compares those fields. -/
def decodeArm (w : Nat) : Instr :=
  -- row 1: mask 0FF000F0 = 01200010
  if field w 20 8 = 0x12 ∧ field w 4 4 = 1 then .armBx (condAt w 28) (regAt w 0)
  -- row 2: mask 0FC000F0 = 00000090
  else if field w 22 6 = 0 ∧ field w 4 4 = 9 then
    if field w 21 1 = 0 then .armMul (condAt w 28) (bitAt w 20) (regAt w 16) (regAt w 8) (regAt w 0)
    else .armMla (condAt w 28) (bitAt w 20) (regAt w 16) (regAt w 12) (regAt w 8) (regAt w 0)
  -- row 3: mask 0F8000F0 = 00800090
  else if field w 23 5 = 1 ∧ field w 4 4 = 9 then decodeMulLong w
  -- row 4: mask 0FB000F0 = 01000090
  else if field w 23 5 = 2 ∧ field w 20 2 = 0 ∧ field w 4 4 = 9 then
    if field w 22 1 = 0 then .armSwp (condAt w 28) (regAt w 16) (regAt w 12) (regAt w 0)
    else .armSwpb (condAt w 28) (regAt w 16) (regAt w 12) (regAt w 0)
  -- row 5: mask 0E000090 = 00000090 and bits 6:5 = 01
  else if field w 25 3 = 0 ∧ field w 4 4 = 11 then
    if field w 20 1 = 0 then .armStrh (condAt w 28) (mode3At w) (regAt w 12)
    else .armLdrh (condAt w 28) (mode3At w) (regAt w 12)
  -- row 6: mask 0E100090 = 00100090 and bit 6 = 1
  else if field w 25 3 = 0 ∧ field w 20 1 = 1 ∧ field w 6 2 = 3 ∧ field w 4 1 = 1 then
    if field w 5 1 = 0 then .armLdrsb (condAt w 28) (mode3At w) (regAt w 12)
    else .armLdrsh (condAt w 28) (mode3At w) (regAt w 12)
  -- row 7: mask 0E100090 = 00000090 and bit 6 = 1
  else if field w 25 3 = 0 ∧ field w 20 1 = 0 ∧ field w 6 2 = 3 ∧ field w 4 1 = 1 then
    .armUndefSignedStore (condAt w 28) (BitVec.ofNat 28 (fieldsFrom w 0))
  -- row 8: mask 0E000090 = 00000090 (bits 6:5 = 00 here)
  else if field w 25 3 = 0 ∧ field w 4 4 = 9 then .armUndefMulSpace (condAt w 28) (BitVec.ofNat 28 (fieldsFrom w 0))
  -- row 9: mask 0FB000F0 = 01000000
  else if field w 23 5 = 2 ∧ field w 20 2 = 0 ∧ field w 4 4 = 0 then .armMrs (condAt w 28) (bitAt w 22) (regAt w 12)
  -- row 10: mask 0FB000F0 = 01200000
  else if field w 23 5 = 2 ∧ field w 20 2 = 2 ∧ field w 4 4 = 0 then
    .armMsrReg (condAt w 28) (bitAt w 22) (BitVec.ofNat 4 (fieldsFrom w 16)) (regAt w 0)
  -- row 11: mask 0FB00000 = 03200000
  else if field w 23 5 = 6 ∧ field w 20 2 = 2 then
    .armMsrImm (condAt w 28) (bitAt w 22) (BitVec.ofNat 4 (fieldsFrom w 16)) (BitVec.ofNat 4 (fieldsFrom w 8)) (BitVec.ofNat 8 (fieldsFrom w 0))
  -- row 12: mask 0F900000 = 01000000
  else if field w 23 5 = 2 ∧ field w 20 1 = 0 then .armUndefControl (condAt w 28) (BitVec.ofNat 28 (fieldsFrom w 0))
  -- row 13: mask 0FB00000 = 03000000
  else if field w 23 5 = 6 ∧ field w 20 2 = 0 then .armUndefTestImm (condAt w 28) (BitVec.ofNat 28 (fieldsFrom w 0))
  -- row 14: mask 0C000000 = 00000000
  else if field w 26 2 = 0 then
    if field w 25 1 = 1 then decodeDpImm w
    else if field w 4 1 = 0 then decodeDpShift w
    else decodeDpReg w
  -- row 15: mask 0E000010 = 06000010
  else if field w 25 3 = 3 ∧ field w 4 1 = 1 then .armUndefMedia (condAt w 28) (BitVec.ofNat 28 (fieldsFrom w 0))
  -- row 16: mask 0C000000 = 04000000
  else if field w 26 2 = 1 then decodeSingle w
  -- row 17: mask 0E000000 = 08000000
  else if field w 25 3 = 4 then
    if field w 20 1 = 0 then .armStm (condAt w 28) (bitAt w 24) (bitAt w 23) (bitAt w 22) (bitAt w 21) (regAt w 16) (BitVec.ofNat 16 (fieldsFrom w 0))
    else .armLdm (condAt w 28) (bitAt w 24) (bitAt w 23) (bitAt w 22) (bitAt w 21) (regAt w 16) (BitVec.ofNat 16 (fieldsFrom w 0))
  -- row 18: mask 0E000000 = 0A000000
  else if field w 25 3 = 5 then
    if field w 24 1 = 0 then .armB (condAt w 28) (BitVec.ofNat 24 (fieldsFrom w 0))
    else .armBl (condAt w 28) (BitVec.ofNat 24 (fieldsFrom w 0))
  -- row 19: mask 0E000000 = 0C000000
  else if field w 25 3 = 6 then
    if field w 20 1 = 0 then .armStc (condAt w 28) (bitAt w 24) (bitAt w 23) (bitAt w 22) (bitAt w 21) (regAt w 16) (BitVec.ofNat 4 (fieldsFrom w 12)) (BitVec.ofNat 4 (fieldsFrom w 8)) (BitVec.ofNat 8 (fieldsFrom w 0))
    else .armLdc (condAt w 28) (bitAt w 24) (bitAt w 23) (bitAt w 22) (bitAt w 21) (regAt w 16) (BitVec.ofNat 4 (fieldsFrom w 12)) (BitVec.ofNat 4 (fieldsFrom w 8)) (BitVec.ofNat 8 (fieldsFrom w 0))
  -- row 20: mask 0F000010 = 0E000000
  else if field w 24 4 = 14 ∧ field w 4 1 = 0 then
    .armCdp (condAt w 28) (BitVec.ofNat 4 (fieldsFrom w 20)) (BitVec.ofNat 4 (fieldsFrom w 16)) (BitVec.ofNat 4 (fieldsFrom w 12)) (BitVec.ofNat 4 (fieldsFrom w 8)) (BitVec.ofNat 3 (fieldsFrom w 5)) (BitVec.ofNat 4 (fieldsFrom w 0))
  -- row 21: mask 0F000010 = 0E000010
  else if field w 24 4 = 14 ∧ field w 4 1 = 1 then
    if field w 20 1 = 0 then .armMcr (condAt w 28) (BitVec.ofNat 3 (fieldsFrom w 21)) (BitVec.ofNat 4 (fieldsFrom w 16)) (regAt w 12) (BitVec.ofNat 4 (fieldsFrom w 8)) (BitVec.ofNat 3 (fieldsFrom w 5)) (BitVec.ofNat 4 (fieldsFrom w 0))
    else .armMrc (condAt w 28) (BitVec.ofNat 3 (fieldsFrom w 21)) (BitVec.ofNat 4 (fieldsFrom w 16)) (regAt w 12) (BitVec.ofNat 4 (fieldsFrom w 8)) (BitVec.ofNat 3 (fieldsFrom w 5)) (BitVec.ofNat 4 (fieldsFrom w 0))
  -- row 22: mask 0F000000 = 0F000000
  else .armSwi (condAt w 28) (BitVec.ofNat 24 (fieldsFrom w 0))

/-- R210 row 4: op is bits 9:6. -/
def decodeThumbAlu (w : Nat) : Instr :=
  match field w 6 4 with
  | 0 => .thumbAnd (lowAt w 3) (lowAt w 0)
  | 1 => .thumbEor (lowAt w 3) (lowAt w 0)
  | 2 => .thumbLslReg (lowAt w 3) (lowAt w 0)
  | 3 => .thumbLsrReg (lowAt w 3) (lowAt w 0)
  | 4 => .thumbAsrReg (lowAt w 3) (lowAt w 0)
  | 5 => .thumbAdc (lowAt w 3) (lowAt w 0)
  | 6 => .thumbSbc (lowAt w 3) (lowAt w 0)
  | 7 => .thumbRor (lowAt w 3) (lowAt w 0)
  | 8 => .thumbTst (lowAt w 3) (lowAt w 0)
  | 9 => .thumbNeg (lowAt w 3) (lowAt w 0)
  | 10 => .thumbCmp (lowAt w 3) (lowAt w 0)
  | 11 => .thumbCmn (lowAt w 3) (lowAt w 0)
  | 12 => .thumbOrr (lowAt w 3) (lowAt w 0)
  | 13 => .thumbMul (lowAt w 3) (lowAt w 0)
  | 14 => .thumbBic (lowAt w 3) (lowAt w 0)
  | _ => .thumbMvn (lowAt w 3) (lowAt w 0)

/-- R210 rows 7 and 8: bits 11:9 name the transfer. -/
def decodeThumbRegOffset (w : Nat) : Instr :=
  match field w 9 3 with
  | 0 => .thumbStrReg (lowAt w 6) (lowAt w 3) (lowAt w 0)
  | 1 => .thumbStrhReg (lowAt w 6) (lowAt w 3) (lowAt w 0)
  | 2 => .thumbStrbReg (lowAt w 6) (lowAt w 3) (lowAt w 0)
  | 3 => .thumbLdsbReg (lowAt w 6) (lowAt w 3) (lowAt w 0)
  | 4 => .thumbLdrReg (lowAt w 6) (lowAt w 3) (lowAt w 0)
  | 5 => .thumbLdrhReg (lowAt w 6) (lowAt w 3) (lowAt w 0)
  | 6 => .thumbLdrbReg (lowAt w 6) (lowAt w 3) (lowAt w 0)
  | _ => .thumbLdshReg (lowAt w 6) (lowAt w 3) (lowAt w 0)

/-- The Thumb decoder: the first row of 30_encoding.md R210 whose test holds. -/
def decodeThumb (w : Nat) : Instr :=
  -- row 1: format 2
  if field w 11 5 = 3 then
    match field w 9 2 with
    | 0 => .thumbAddReg (lowAt w 6) (lowAt w 3) (lowAt w 0)
    | 1 => .thumbSubReg (lowAt w 6) (lowAt w 3) (lowAt w 0)
    | 2 => .thumbAddImm3 (BitVec.ofNat 3 (fieldsFrom w 6)) (lowAt w 3) (lowAt w 0)
    | _ => .thumbSubImm3 (BitVec.ofNat 3 (fieldsFrom w 6)) (lowAt w 3) (lowAt w 0)
  -- row 2: format 1 (op 11 is row 1)
  else if field w 13 3 = 0 then
    match field w 11 2 with
    | 0 => .thumbLslImm (BitVec.ofNat 5 (fieldsFrom w 6)) (lowAt w 3) (lowAt w 0)
    | 1 => .thumbLsrImm (BitVec.ofNat 5 (fieldsFrom w 6)) (lowAt w 3) (lowAt w 0)
    | _ => .thumbAsrImm (BitVec.ofNat 5 (fieldsFrom w 6)) (lowAt w 3) (lowAt w 0)
  -- row 3: format 3
  else if field w 13 3 = 1 then
    match field w 11 2 with
    | 0 => .thumbMovImm (lowAt w 8) (BitVec.ofNat 8 (fieldsFrom w 0))
    | 1 => .thumbCmpImm (lowAt w 8) (BitVec.ofNat 8 (fieldsFrom w 0))
    | 2 => .thumbAddImm8 (lowAt w 8) (BitVec.ofNat 8 (fieldsFrom w 0))
    | _ => .thumbSubImm8 (lowAt w 8) (BitVec.ofNat 8 (fieldsFrom w 0))
  -- row 4: format 4
  else if field w 10 6 = 16 then decodeThumbAlu w
  -- row 5: format 5
  else if field w 10 6 = 17 then
    match field w 8 2 with
    | 0 => .thumbAddHi (regAt w 3) (hiRdAt w)
    | 1 => .thumbCmpHi (regAt w 3) (hiRdAt w)
    | 2 => .thumbMovHi (regAt w 3) (hiRdAt w)
    | _ => .thumbBx (regAt w 3)
  -- row 6: format 6
  else if field w 11 5 = 9 then .thumbLdrPc (lowAt w 8) (BitVec.ofNat 8 (fieldsFrom w 0))
  -- rows 7 and 8: formats 7 and 8
  else if field w 12 4 = 5 then decodeThumbRegOffset w
  -- row 9: format 9
  else if field w 13 3 = 3 then
    match field w 11 2 with
    | 0 => .thumbStrImm (BitVec.ofNat 5 (fieldsFrom w 6)) (lowAt w 3) (lowAt w 0)
    | 1 => .thumbLdrImm (BitVec.ofNat 5 (fieldsFrom w 6)) (lowAt w 3) (lowAt w 0)
    | 2 => .thumbStrbImm (BitVec.ofNat 5 (fieldsFrom w 6)) (lowAt w 3) (lowAt w 0)
    | _ => .thumbLdrbImm (BitVec.ofNat 5 (fieldsFrom w 6)) (lowAt w 3) (lowAt w 0)
  -- row 10: format 10
  else if field w 12 4 = 8 then
    if field w 11 1 = 0 then .thumbStrhImm (BitVec.ofNat 5 (fieldsFrom w 6)) (lowAt w 3) (lowAt w 0)
    else .thumbLdrhImm (BitVec.ofNat 5 (fieldsFrom w 6)) (lowAt w 3) (lowAt w 0)
  -- row 11: format 11
  else if field w 12 4 = 9 then
    if field w 11 1 = 0 then .thumbStrSp (lowAt w 8) (BitVec.ofNat 8 (fieldsFrom w 0))
    else .thumbLdrSp (lowAt w 8) (BitVec.ofNat 8 (fieldsFrom w 0))
  -- row 12: format 12
  else if field w 12 4 = 10 then
    if field w 11 1 = 0 then .thumbAddPc (lowAt w 8) (BitVec.ofNat 8 (fieldsFrom w 0))
    else .thumbAddSp (lowAt w 8) (BitVec.ofNat 8 (fieldsFrom w 0))
  -- row 13: format 13
  else if field w 8 8 = 0xB0 then
    if field w 7 1 = 0 then .thumbIncSp (BitVec.ofNat 7 (fieldsFrom w 0))
    else .thumbDecSp (BitVec.ofNat 7 (fieldsFrom w 0))
  -- row 14: format 14 (mask F600 = B400)
  else if field w 12 4 = 11 ∧ field w 9 2 = 2 then
    if field w 11 1 = 0 then .thumbPush (bitAt w 8) (BitVec.ofNat 8 (fieldsFrom w 0))
    else .thumbPop (bitAt w 8) (BitVec.ofNat 8 (fieldsFrom w 0))
  -- row 15: other 1011 patterns
  else if field w 12 4 = 11 then .thumbUndef1011 (BitVec.ofNat 12 (fieldsFrom w 0))
  -- row 16: format 15
  else if field w 12 4 = 12 then
    if field w 11 1 = 0 then .thumbStmia (lowAt w 8) (BitVec.ofNat 8 (fieldsFrom w 0))
    else .thumbLdmia (lowAt w 8) (BitVec.ofNat 8 (fieldsFrom w 0))
  -- row 17: format 17
  else if field w 8 8 = 0xDF then .thumbSwi (BitVec.ofNat 8 (fieldsFrom w 0))
  -- row 18: cond = 1110
  else if field w 8 8 = 0xDE then .thumbUndefCond (BitVec.ofNat 8 (fieldsFrom w 0))
  -- row 19: format 16
  else if field w 12 4 = 13 then .thumbBcond (condAt w 8) (BitVec.ofNat 8 (fieldsFrom w 0))
  -- rows 20 to 23: formats 18 and 19
  else match field w 11 2 with
    | 0 => .thumbB (BitVec.ofNat 11 (fieldsFrom w 0))
    | 1 => .thumbUndefBlx (BitVec.ofNat 11 (fieldsFrom w 0))
    | 2 => .thumbBlPrefix (BitVec.ofNat 11 (fieldsFrom w 0))
    | _ => .thumbBlSuffix (BitVec.ofNat 11 (fieldsFrom w 0))

/-- Why bytes are no instruction: the word or halfword is not complete. Every complete one decodes (R202, R210). -/
inductive DecodeError where
  | truncatedArm
  | truncatedThumb
  deriving DecidableEq, Repr

/-- The decoder on bytes, little-endian (20_memory.md R118): the T bit alone gives the length (30_encoding.md R200).
It answers the instruction and the bytes after it. -/
def decodeBytes (thumb : Bool) (bytes : List Byte) : Except DecodeError (Instr × List Byte) :=
  match thumb, bytes with
  | false, b0 :: b1 :: b2 :: b3 :: rest =>
    .ok (decodeArm (b0.toNat + b1.toNat * 0x100 + b2.toNat * 0x10000 + b3.toNat * 0x1000000), rest)
  | false, _ => .error .truncatedArm
  | true, b0 :: b1 :: rest => .ok (decodeThumb (b0.toNat + b1.toNat * 0x100), rest)
  | true, _ => .error .truncatedThumb

/-- The bits of mode 2 address fields. -/
def Mode2.bits (m : Mode2) : Nat :=
  m.up.toNat * 0x800000 + m.rn.val * 0x10000 +
    match m.off with
    | .imm off => off.toNat
    | .reg rm sh amt => 0x2000000 + amt.toNat * 0x80 + sh.number * 0x20 + rm.val

/-- The bits of mode 3 address fields. -/
def Mode3.bits (m : Mode3) : Nat :=
  m.pre.toNat * 0x1000000 + m.up.toNat * 0x800000 + m.wback.toNat * 0x200000 + m.rn.val * 0x10000 +
    match m.off with
    | .imm off => 0x400000 + off.toNat / 16 * 0x100 + off.toNat % 16
    | .reg rm => rm.val

/-- The word or halfword of an instruction (30_encoding.md R201, R209), with SBZ fields 0 and SBO fields 1. -/
def encode : Instr → Nat
  | .armBx cond rm =>
      cond.number * 0x10000000 + 0x12FFF10 + rm.val
  | .armMul cond s rd rs rm =>
      cond.number * 0x10000000 + 0x90 + s.toNat * 0x100000 + rd.val * 0x10000 + rs.val * 0x100 + rm.val
  | .armMla cond s rd rn rs rm =>
      cond.number * 0x10000000 + 0x200090 + s.toNat * 0x100000 + rd.val * 0x10000 + rn.val * 0x1000 + rs.val * 0x100 + rm.val
  | .armUmull cond s rdHi rdLo rs rm =>
      cond.number * 0x10000000 + 0x800090 + s.toNat * 0x100000 + rdHi.val * 0x10000 + rdLo.val * 0x1000 + rs.val * 0x100 + rm.val
  | .armUmlal cond s rdHi rdLo rs rm =>
      cond.number * 0x10000000 + 0xA00090 + s.toNat * 0x100000 + rdHi.val * 0x10000 + rdLo.val * 0x1000 + rs.val * 0x100 + rm.val
  | .armSmull cond s rdHi rdLo rs rm =>
      cond.number * 0x10000000 + 0xC00090 + s.toNat * 0x100000 + rdHi.val * 0x10000 + rdLo.val * 0x1000 + rs.val * 0x100 + rm.val
  | .armSmlal cond s rdHi rdLo rs rm =>
      cond.number * 0x10000000 + 0xE00090 + s.toNat * 0x100000 + rdHi.val * 0x10000 + rdLo.val * 0x1000 + rs.val * 0x100 + rm.val
  | .armSwp cond rn rd rm =>
      cond.number * 0x10000000 + 0x1000090 + rn.val * 0x10000 + rd.val * 0x1000 + rm.val
  | .armSwpb cond rn rd rm =>
      cond.number * 0x10000000 + 0x1400090 + rn.val * 0x10000 + rd.val * 0x1000 + rm.val
  | .armStrh cond m rd =>
      cond.number * 0x10000000 + 0xB0 + m.bits + rd.val * 0x1000
  | .armLdrh cond m rd =>
      cond.number * 0x10000000 + 0x1000B0 + m.bits + rd.val * 0x1000
  | .armLdrsb cond m rd =>
      cond.number * 0x10000000 + 0x1000D0 + m.bits + rd.val * 0x1000
  | .armLdrsh cond m rd =>
      cond.number * 0x10000000 + 0x1000F0 + m.bits + rd.val * 0x1000
  | .armUndefSignedStore cond bits =>
      cond.number * 0x10000000 + bits.toNat
  | .armUndefMulSpace cond bits =>
      cond.number * 0x10000000 + bits.toNat
  | .armMrs cond r rd =>
      cond.number * 0x10000000 + 0x10F0000 + r.toNat * 0x400000 + rd.val * 0x1000
  | .armMsrReg cond r mask rm =>
      cond.number * 0x10000000 + 0x120F000 + r.toNat * 0x400000 + mask.toNat * 0x10000 + rm.val
  | .armMsrImm cond r mask rot imm =>
      cond.number * 0x10000000 + 0x320F000 + r.toNat * 0x400000 + mask.toNat * 0x10000 + rot.toNat * 0x100 + imm.toNat
  | .armUndefControl cond bits =>
      cond.number * 0x10000000 + bits.toNat
  | .armUndefTestImm cond bits =>
      cond.number * 0x10000000 + bits.toNat
  | .armAndImm cond s rn rd rot imm =>
      cond.number * 0x10000000 + 0x2000000 + s.toNat * 0x100000 + rn.val * 0x10000 + rd.val * 0x1000 + rot.toNat * 0x100 + imm.toNat
  | .armAndShift cond s rn rd amt sh rm =>
      cond.number * 0x10000000 + s.toNat * 0x100000 + rn.val * 0x10000 + rd.val * 0x1000 + amt.toNat * 0x80 + sh.number * 0x20 + rm.val
  | .armAndReg cond s rn rd rs sh rm =>
      cond.number * 0x10000000 + 0x10 + s.toNat * 0x100000 + rn.val * 0x10000 + rd.val * 0x1000 + rs.val * 0x100 + sh.number * 0x20 + rm.val
  | .armEorImm cond s rn rd rot imm =>
      cond.number * 0x10000000 + 0x2200000 + s.toNat * 0x100000 + rn.val * 0x10000 + rd.val * 0x1000 + rot.toNat * 0x100 + imm.toNat
  | .armEorShift cond s rn rd amt sh rm =>
      cond.number * 0x10000000 + 0x200000 + s.toNat * 0x100000 + rn.val * 0x10000 + rd.val * 0x1000 + amt.toNat * 0x80 + sh.number * 0x20 + rm.val
  | .armEorReg cond s rn rd rs sh rm =>
      cond.number * 0x10000000 + 0x200010 + s.toNat * 0x100000 + rn.val * 0x10000 + rd.val * 0x1000 + rs.val * 0x100 + sh.number * 0x20 + rm.val
  | .armSubImm cond s rn rd rot imm =>
      cond.number * 0x10000000 + 0x2400000 + s.toNat * 0x100000 + rn.val * 0x10000 + rd.val * 0x1000 + rot.toNat * 0x100 + imm.toNat
  | .armSubShift cond s rn rd amt sh rm =>
      cond.number * 0x10000000 + 0x400000 + s.toNat * 0x100000 + rn.val * 0x10000 + rd.val * 0x1000 + amt.toNat * 0x80 + sh.number * 0x20 + rm.val
  | .armSubReg cond s rn rd rs sh rm =>
      cond.number * 0x10000000 + 0x400010 + s.toNat * 0x100000 + rn.val * 0x10000 + rd.val * 0x1000 + rs.val * 0x100 + sh.number * 0x20 + rm.val
  | .armRsbImm cond s rn rd rot imm =>
      cond.number * 0x10000000 + 0x2600000 + s.toNat * 0x100000 + rn.val * 0x10000 + rd.val * 0x1000 + rot.toNat * 0x100 + imm.toNat
  | .armRsbShift cond s rn rd amt sh rm =>
      cond.number * 0x10000000 + 0x600000 + s.toNat * 0x100000 + rn.val * 0x10000 + rd.val * 0x1000 + amt.toNat * 0x80 + sh.number * 0x20 + rm.val
  | .armRsbReg cond s rn rd rs sh rm =>
      cond.number * 0x10000000 + 0x600010 + s.toNat * 0x100000 + rn.val * 0x10000 + rd.val * 0x1000 + rs.val * 0x100 + sh.number * 0x20 + rm.val
  | .armAddImm cond s rn rd rot imm =>
      cond.number * 0x10000000 + 0x2800000 + s.toNat * 0x100000 + rn.val * 0x10000 + rd.val * 0x1000 + rot.toNat * 0x100 + imm.toNat
  | .armAddShift cond s rn rd amt sh rm =>
      cond.number * 0x10000000 + 0x800000 + s.toNat * 0x100000 + rn.val * 0x10000 + rd.val * 0x1000 + amt.toNat * 0x80 + sh.number * 0x20 + rm.val
  | .armAddReg cond s rn rd rs sh rm =>
      cond.number * 0x10000000 + 0x800010 + s.toNat * 0x100000 + rn.val * 0x10000 + rd.val * 0x1000 + rs.val * 0x100 + sh.number * 0x20 + rm.val
  | .armAdcImm cond s rn rd rot imm =>
      cond.number * 0x10000000 + 0x2A00000 + s.toNat * 0x100000 + rn.val * 0x10000 + rd.val * 0x1000 + rot.toNat * 0x100 + imm.toNat
  | .armAdcShift cond s rn rd amt sh rm =>
      cond.number * 0x10000000 + 0xA00000 + s.toNat * 0x100000 + rn.val * 0x10000 + rd.val * 0x1000 + amt.toNat * 0x80 + sh.number * 0x20 + rm.val
  | .armAdcReg cond s rn rd rs sh rm =>
      cond.number * 0x10000000 + 0xA00010 + s.toNat * 0x100000 + rn.val * 0x10000 + rd.val * 0x1000 + rs.val * 0x100 + sh.number * 0x20 + rm.val
  | .armSbcImm cond s rn rd rot imm =>
      cond.number * 0x10000000 + 0x2C00000 + s.toNat * 0x100000 + rn.val * 0x10000 + rd.val * 0x1000 + rot.toNat * 0x100 + imm.toNat
  | .armSbcShift cond s rn rd amt sh rm =>
      cond.number * 0x10000000 + 0xC00000 + s.toNat * 0x100000 + rn.val * 0x10000 + rd.val * 0x1000 + amt.toNat * 0x80 + sh.number * 0x20 + rm.val
  | .armSbcReg cond s rn rd rs sh rm =>
      cond.number * 0x10000000 + 0xC00010 + s.toNat * 0x100000 + rn.val * 0x10000 + rd.val * 0x1000 + rs.val * 0x100 + sh.number * 0x20 + rm.val
  | .armRscImm cond s rn rd rot imm =>
      cond.number * 0x10000000 + 0x2E00000 + s.toNat * 0x100000 + rn.val * 0x10000 + rd.val * 0x1000 + rot.toNat * 0x100 + imm.toNat
  | .armRscShift cond s rn rd amt sh rm =>
      cond.number * 0x10000000 + 0xE00000 + s.toNat * 0x100000 + rn.val * 0x10000 + rd.val * 0x1000 + amt.toNat * 0x80 + sh.number * 0x20 + rm.val
  | .armRscReg cond s rn rd rs sh rm =>
      cond.number * 0x10000000 + 0xE00010 + s.toNat * 0x100000 + rn.val * 0x10000 + rd.val * 0x1000 + rs.val * 0x100 + sh.number * 0x20 + rm.val
  | .armTstImm cond rn rot imm =>
      cond.number * 0x10000000 + 0x3100000 + rn.val * 0x10000 + rot.toNat * 0x100 + imm.toNat
  | .armTstShift cond rn amt sh rm =>
      cond.number * 0x10000000 + 0x1100000 + rn.val * 0x10000 + amt.toNat * 0x80 + sh.number * 0x20 + rm.val
  | .armTstReg cond rn rs sh rm =>
      cond.number * 0x10000000 + 0x1100010 + rn.val * 0x10000 + rs.val * 0x100 + sh.number * 0x20 + rm.val
  | .armTeqImm cond rn rot imm =>
      cond.number * 0x10000000 + 0x3300000 + rn.val * 0x10000 + rot.toNat * 0x100 + imm.toNat
  | .armTeqShift cond rn amt sh rm =>
      cond.number * 0x10000000 + 0x1300000 + rn.val * 0x10000 + amt.toNat * 0x80 + sh.number * 0x20 + rm.val
  | .armTeqReg cond rn rs sh rm =>
      cond.number * 0x10000000 + 0x1300010 + rn.val * 0x10000 + rs.val * 0x100 + sh.number * 0x20 + rm.val
  | .armCmpImm cond rn rot imm =>
      cond.number * 0x10000000 + 0x3500000 + rn.val * 0x10000 + rot.toNat * 0x100 + imm.toNat
  | .armCmpShift cond rn amt sh rm =>
      cond.number * 0x10000000 + 0x1500000 + rn.val * 0x10000 + amt.toNat * 0x80 + sh.number * 0x20 + rm.val
  | .armCmpReg cond rn rs sh rm =>
      cond.number * 0x10000000 + 0x1500010 + rn.val * 0x10000 + rs.val * 0x100 + sh.number * 0x20 + rm.val
  | .armCmnImm cond rn rot imm =>
      cond.number * 0x10000000 + 0x3700000 + rn.val * 0x10000 + rot.toNat * 0x100 + imm.toNat
  | .armCmnShift cond rn amt sh rm =>
      cond.number * 0x10000000 + 0x1700000 + rn.val * 0x10000 + amt.toNat * 0x80 + sh.number * 0x20 + rm.val
  | .armCmnReg cond rn rs sh rm =>
      cond.number * 0x10000000 + 0x1700010 + rn.val * 0x10000 + rs.val * 0x100 + sh.number * 0x20 + rm.val
  | .armOrrImm cond s rn rd rot imm =>
      cond.number * 0x10000000 + 0x3800000 + s.toNat * 0x100000 + rn.val * 0x10000 + rd.val * 0x1000 + rot.toNat * 0x100 + imm.toNat
  | .armOrrShift cond s rn rd amt sh rm =>
      cond.number * 0x10000000 + 0x1800000 + s.toNat * 0x100000 + rn.val * 0x10000 + rd.val * 0x1000 + amt.toNat * 0x80 + sh.number * 0x20 + rm.val
  | .armOrrReg cond s rn rd rs sh rm =>
      cond.number * 0x10000000 + 0x1800010 + s.toNat * 0x100000 + rn.val * 0x10000 + rd.val * 0x1000 + rs.val * 0x100 + sh.number * 0x20 + rm.val
  | .armMovImm cond s rd rot imm =>
      cond.number * 0x10000000 + 0x3A00000 + s.toNat * 0x100000 + rd.val * 0x1000 + rot.toNat * 0x100 + imm.toNat
  | .armMovShift cond s rd amt sh rm =>
      cond.number * 0x10000000 + 0x1A00000 + s.toNat * 0x100000 + rd.val * 0x1000 + amt.toNat * 0x80 + sh.number * 0x20 + rm.val
  | .armMovReg cond s rd rs sh rm =>
      cond.number * 0x10000000 + 0x1A00010 + s.toNat * 0x100000 + rd.val * 0x1000 + rs.val * 0x100 + sh.number * 0x20 + rm.val
  | .armBicImm cond s rn rd rot imm =>
      cond.number * 0x10000000 + 0x3C00000 + s.toNat * 0x100000 + rn.val * 0x10000 + rd.val * 0x1000 + rot.toNat * 0x100 + imm.toNat
  | .armBicShift cond s rn rd amt sh rm =>
      cond.number * 0x10000000 + 0x1C00000 + s.toNat * 0x100000 + rn.val * 0x10000 + rd.val * 0x1000 + amt.toNat * 0x80 + sh.number * 0x20 + rm.val
  | .armBicReg cond s rn rd rs sh rm =>
      cond.number * 0x10000000 + 0x1C00010 + s.toNat * 0x100000 + rn.val * 0x10000 + rd.val * 0x1000 + rs.val * 0x100 + sh.number * 0x20 + rm.val
  | .armMvnImm cond s rd rot imm =>
      cond.number * 0x10000000 + 0x3E00000 + s.toNat * 0x100000 + rd.val * 0x1000 + rot.toNat * 0x100 + imm.toNat
  | .armMvnShift cond s rd amt sh rm =>
      cond.number * 0x10000000 + 0x1E00000 + s.toNat * 0x100000 + rd.val * 0x1000 + amt.toNat * 0x80 + sh.number * 0x20 + rm.val
  | .armMvnReg cond s rd rs sh rm =>
      cond.number * 0x10000000 + 0x1E00010 + s.toNat * 0x100000 + rd.val * 0x1000 + rs.val * 0x100 + sh.number * 0x20 + rm.val
  | .armUndefMedia cond bits =>
      cond.number * 0x10000000 + bits.toNat
  | .armStrPre cond w m rd =>
      cond.number * 0x10000000 + 0x5000000 + w.toNat * 0x200000 + m.bits + rd.val * 0x1000
  | .armStrPost cond m rd =>
      cond.number * 0x10000000 + 0x4000000 + m.bits + rd.val * 0x1000
  | .armLdrPre cond w m rd =>
      cond.number * 0x10000000 + 0x5100000 + w.toNat * 0x200000 + m.bits + rd.val * 0x1000
  | .armLdrPost cond m rd =>
      cond.number * 0x10000000 + 0x4100000 + m.bits + rd.val * 0x1000
  | .armStrbPre cond w m rd =>
      cond.number * 0x10000000 + 0x5400000 + w.toNat * 0x200000 + m.bits + rd.val * 0x1000
  | .armStrbPost cond m rd =>
      cond.number * 0x10000000 + 0x4400000 + m.bits + rd.val * 0x1000
  | .armLdrbPre cond w m rd =>
      cond.number * 0x10000000 + 0x5500000 + w.toNat * 0x200000 + m.bits + rd.val * 0x1000
  | .armLdrbPost cond m rd =>
      cond.number * 0x10000000 + 0x4500000 + m.bits + rd.val * 0x1000
  | .armStrt cond m rd =>
      cond.number * 0x10000000 + 0x4200000 + m.bits + rd.val * 0x1000
  | .armLdrt cond m rd =>
      cond.number * 0x10000000 + 0x4300000 + m.bits + rd.val * 0x1000
  | .armStrbt cond m rd =>
      cond.number * 0x10000000 + 0x4600000 + m.bits + rd.val * 0x1000
  | .armLdrbt cond m rd =>
      cond.number * 0x10000000 + 0x4700000 + m.bits + rd.val * 0x1000
  | .armStm cond p u s w rn list =>
      cond.number * 0x10000000 + 0x8000000 + p.toNat * 0x1000000 + u.toNat * 0x800000 + s.toNat * 0x400000 + w.toNat * 0x200000 + rn.val * 0x10000 + list.toNat
  | .armLdm cond p u s w rn list =>
      cond.number * 0x10000000 + 0x8100000 + p.toNat * 0x1000000 + u.toNat * 0x800000 + s.toNat * 0x400000 + w.toNat * 0x200000 + rn.val * 0x10000 + list.toNat
  | .armB cond off =>
      cond.number * 0x10000000 + 0xA000000 + off.toNat
  | .armBl cond off =>
      cond.number * 0x10000000 + 0xB000000 + off.toNat
  | .armStc cond p u n w rn crd cp off =>
      cond.number * 0x10000000 + 0xC000000 + p.toNat * 0x1000000 + u.toNat * 0x800000 + n.toNat * 0x400000 + w.toNat * 0x200000 + rn.val * 0x10000 + crd.toNat * 0x1000 + cp.toNat * 0x100 + off.toNat
  | .armLdc cond p u n w rn crd cp off =>
      cond.number * 0x10000000 + 0xC100000 + p.toNat * 0x1000000 + u.toNat * 0x800000 + n.toNat * 0x400000 + w.toNat * 0x200000 + rn.val * 0x10000 + crd.toNat * 0x1000 + cp.toNat * 0x100 + off.toNat
  | .armCdp cond opc1 crn crd cp opc2 crm =>
      cond.number * 0x10000000 + 0xE000000 + opc1.toNat * 0x100000 + crn.toNat * 0x10000 + crd.toNat * 0x1000 + cp.toNat * 0x100 + opc2.toNat * 0x20 + crm.toNat
  | .armMcr cond opc1 crn rd cp opc2 crm =>
      cond.number * 0x10000000 + 0xE000010 + opc1.toNat * 0x200000 + crn.toNat * 0x10000 + rd.val * 0x1000 + cp.toNat * 0x100 + opc2.toNat * 0x20 + crm.toNat
  | .armMrc cond opc1 crn rd cp opc2 crm =>
      cond.number * 0x10000000 + 0xE100010 + opc1.toNat * 0x200000 + crn.toNat * 0x10000 + rd.val * 0x1000 + cp.toNat * 0x100 + opc2.toNat * 0x20 + crm.toNat
  | .armSwi cond comment =>
      cond.number * 0x10000000 + 0xF000000 + comment.toNat
  | .thumbLslImm off rs rd =>
      off.toNat * 0x40 + rs.val * 0x8 + rd.val
  | .thumbLsrImm off rs rd =>
      0x800 + off.toNat * 0x40 + rs.val * 0x8 + rd.val
  | .thumbAsrImm off rs rd =>
      0x1000 + off.toNat * 0x40 + rs.val * 0x8 + rd.val
  | .thumbAddReg rn rs rd =>
      0x1800 + rn.val * 0x40 + rs.val * 0x8 + rd.val
  | .thumbSubReg rn rs rd =>
      0x1A00 + rn.val * 0x40 + rs.val * 0x8 + rd.val
  | .thumbAddImm3 imm rs rd =>
      0x1C00 + imm.toNat * 0x40 + rs.val * 0x8 + rd.val
  | .thumbSubImm3 imm rs rd =>
      0x1E00 + imm.toNat * 0x40 + rs.val * 0x8 + rd.val
  | .thumbMovImm rd imm =>
      0x2000 + rd.val * 0x100 + imm.toNat
  | .thumbCmpImm rd imm =>
      0x2800 + rd.val * 0x100 + imm.toNat
  | .thumbAddImm8 rd imm =>
      0x3000 + rd.val * 0x100 + imm.toNat
  | .thumbSubImm8 rd imm =>
      0x3800 + rd.val * 0x100 + imm.toNat
  | .thumbAnd rs rd =>
      0x4000 + rs.val * 0x8 + rd.val
  | .thumbEor rs rd =>
      0x4040 + rs.val * 0x8 + rd.val
  | .thumbLslReg rs rd =>
      0x4080 + rs.val * 0x8 + rd.val
  | .thumbLsrReg rs rd =>
      0x40C0 + rs.val * 0x8 + rd.val
  | .thumbAsrReg rs rd =>
      0x4100 + rs.val * 0x8 + rd.val
  | .thumbAdc rs rd =>
      0x4140 + rs.val * 0x8 + rd.val
  | .thumbSbc rs rd =>
      0x4180 + rs.val * 0x8 + rd.val
  | .thumbRor rs rd =>
      0x41C0 + rs.val * 0x8 + rd.val
  | .thumbTst rs rd =>
      0x4200 + rs.val * 0x8 + rd.val
  | .thumbNeg rs rd =>
      0x4240 + rs.val * 0x8 + rd.val
  | .thumbCmp rs rd =>
      0x4280 + rs.val * 0x8 + rd.val
  | .thumbCmn rs rd =>
      0x42C0 + rs.val * 0x8 + rd.val
  | .thumbOrr rs rd =>
      0x4300 + rs.val * 0x8 + rd.val
  | .thumbMul rs rd =>
      0x4340 + rs.val * 0x8 + rd.val
  | .thumbBic rs rd =>
      0x4380 + rs.val * 0x8 + rd.val
  | .thumbMvn rs rd =>
      0x43C0 + rs.val * 0x8 + rd.val
  | .thumbAddHi rs rd =>
      0x4400 + rs.val * 0x8 + rd.val / 8 * 0x80 + rd.val % 8
  | .thumbCmpHi rs rd =>
      0x4500 + rs.val * 0x8 + rd.val / 8 * 0x80 + rd.val % 8
  | .thumbMovHi rs rd =>
      0x4600 + rs.val * 0x8 + rd.val / 8 * 0x80 + rd.val % 8
  | .thumbBx rs =>
      0x4700 + rs.val * 0x8
  | .thumbLdrPc rd word =>
      0x4800 + rd.val * 0x100 + word.toNat
  | .thumbStrReg ro rb rd =>
      0x5000 + ro.val * 0x40 + rb.val * 0x8 + rd.val
  | .thumbStrbReg ro rb rd =>
      0x5400 + ro.val * 0x40 + rb.val * 0x8 + rd.val
  | .thumbLdrReg ro rb rd =>
      0x5800 + ro.val * 0x40 + rb.val * 0x8 + rd.val
  | .thumbLdrbReg ro rb rd =>
      0x5C00 + ro.val * 0x40 + rb.val * 0x8 + rd.val
  | .thumbStrhReg ro rb rd =>
      0x5200 + ro.val * 0x40 + rb.val * 0x8 + rd.val
  | .thumbLdsbReg ro rb rd =>
      0x5600 + ro.val * 0x40 + rb.val * 0x8 + rd.val
  | .thumbLdrhReg ro rb rd =>
      0x5A00 + ro.val * 0x40 + rb.val * 0x8 + rd.val
  | .thumbLdshReg ro rb rd =>
      0x5E00 + ro.val * 0x40 + rb.val * 0x8 + rd.val
  | .thumbStrImm off rb rd =>
      0x6000 + off.toNat * 0x40 + rb.val * 0x8 + rd.val
  | .thumbLdrImm off rb rd =>
      0x6800 + off.toNat * 0x40 + rb.val * 0x8 + rd.val
  | .thumbStrbImm off rb rd =>
      0x7000 + off.toNat * 0x40 + rb.val * 0x8 + rd.val
  | .thumbLdrbImm off rb rd =>
      0x7800 + off.toNat * 0x40 + rb.val * 0x8 + rd.val
  | .thumbStrhImm off rb rd =>
      0x8000 + off.toNat * 0x40 + rb.val * 0x8 + rd.val
  | .thumbLdrhImm off rb rd =>
      0x8800 + off.toNat * 0x40 + rb.val * 0x8 + rd.val
  | .thumbStrSp rd word =>
      0x9000 + rd.val * 0x100 + word.toNat
  | .thumbLdrSp rd word =>
      0x9800 + rd.val * 0x100 + word.toNat
  | .thumbAddPc rd word =>
      0xA000 + rd.val * 0x100 + word.toNat
  | .thumbAddSp rd word =>
      0xA800 + rd.val * 0x100 + word.toNat
  | .thumbIncSp word =>
      0xB000 + word.toNat
  | .thumbDecSp word =>
      0xB080 + word.toNat
  | .thumbPush r list =>
      0xB400 + r.toNat * 0x100 + list.toNat
  | .thumbPop r list =>
      0xBC00 + r.toNat * 0x100 + list.toNat
  | .thumbUndef1011 bits =>
      0xB000 + bits.toNat
  | .thumbStmia rb list =>
      0xC000 + rb.val * 0x100 + list.toNat
  | .thumbLdmia rb list =>
      0xC800 + rb.val * 0x100 + list.toNat
  | .thumbSwi value =>
      0xDF00 + value.toNat
  | .thumbUndefCond bits =>
      0xDE00 + bits.toNat
  | .thumbBcond c off =>
      0xD000 + c.number * 0x100 + off.toNat
  | .thumbB off =>
      0xE000 + off.toNat
  | .thumbUndefBlx bits =>
      0xE800 + bits.toNat
  | .thumbBlPrefix off =>
      0xF000 + off.toNat
  | .thumbBlSuffix off =>
      0xF800 + off.toNat

/-- Whether an instruction is a 16-bit Thumb one (30_encoding.md R200). -/
def Instr.isThumb : Instr → Bool
  | .armBx .. => false
  | .armMul .. => false
  | .armMla .. => false
  | .armUmull .. => false
  | .armUmlal .. => false
  | .armSmull .. => false
  | .armSmlal .. => false
  | .armSwp .. => false
  | .armSwpb .. => false
  | .armStrh .. => false
  | .armLdrh .. => false
  | .armLdrsb .. => false
  | .armLdrsh .. => false
  | .armUndefSignedStore .. => false
  | .armUndefMulSpace .. => false
  | .armMrs .. => false
  | .armMsrReg .. => false
  | .armMsrImm .. => false
  | .armUndefControl .. => false
  | .armUndefTestImm .. => false
  | .armAndImm .. => false
  | .armAndShift .. => false
  | .armAndReg .. => false
  | .armEorImm .. => false
  | .armEorShift .. => false
  | .armEorReg .. => false
  | .armSubImm .. => false
  | .armSubShift .. => false
  | .armSubReg .. => false
  | .armRsbImm .. => false
  | .armRsbShift .. => false
  | .armRsbReg .. => false
  | .armAddImm .. => false
  | .armAddShift .. => false
  | .armAddReg .. => false
  | .armAdcImm .. => false
  | .armAdcShift .. => false
  | .armAdcReg .. => false
  | .armSbcImm .. => false
  | .armSbcShift .. => false
  | .armSbcReg .. => false
  | .armRscImm .. => false
  | .armRscShift .. => false
  | .armRscReg .. => false
  | .armTstImm .. => false
  | .armTstShift .. => false
  | .armTstReg .. => false
  | .armTeqImm .. => false
  | .armTeqShift .. => false
  | .armTeqReg .. => false
  | .armCmpImm .. => false
  | .armCmpShift .. => false
  | .armCmpReg .. => false
  | .armCmnImm .. => false
  | .armCmnShift .. => false
  | .armCmnReg .. => false
  | .armOrrImm .. => false
  | .armOrrShift .. => false
  | .armOrrReg .. => false
  | .armMovImm .. => false
  | .armMovShift .. => false
  | .armMovReg .. => false
  | .armBicImm .. => false
  | .armBicShift .. => false
  | .armBicReg .. => false
  | .armMvnImm .. => false
  | .armMvnShift .. => false
  | .armMvnReg .. => false
  | .armUndefMedia .. => false
  | .armStrPre .. => false
  | .armStrPost .. => false
  | .armLdrPre .. => false
  | .armLdrPost .. => false
  | .armStrbPre .. => false
  | .armStrbPost .. => false
  | .armLdrbPre .. => false
  | .armLdrbPost .. => false
  | .armStrt .. => false
  | .armLdrt .. => false
  | .armStrbt .. => false
  | .armLdrbt .. => false
  | .armStm .. => false
  | .armLdm .. => false
  | .armB .. => false
  | .armBl .. => false
  | .armStc .. => false
  | .armLdc .. => false
  | .armCdp .. => false
  | .armMcr .. => false
  | .armMrc .. => false
  | .armSwi .. => false
  | .thumbLslImm .. => true
  | .thumbLsrImm .. => true
  | .thumbAsrImm .. => true
  | .thumbAddReg .. => true
  | .thumbSubReg .. => true
  | .thumbAddImm3 .. => true
  | .thumbSubImm3 .. => true
  | .thumbMovImm .. => true
  | .thumbCmpImm .. => true
  | .thumbAddImm8 .. => true
  | .thumbSubImm8 .. => true
  | .thumbAnd .. => true
  | .thumbEor .. => true
  | .thumbLslReg .. => true
  | .thumbLsrReg .. => true
  | .thumbAsrReg .. => true
  | .thumbAdc .. => true
  | .thumbSbc .. => true
  | .thumbRor .. => true
  | .thumbTst .. => true
  | .thumbNeg .. => true
  | .thumbCmp .. => true
  | .thumbCmn .. => true
  | .thumbOrr .. => true
  | .thumbMul .. => true
  | .thumbBic .. => true
  | .thumbMvn .. => true
  | .thumbAddHi .. => true
  | .thumbCmpHi .. => true
  | .thumbMovHi .. => true
  | .thumbBx .. => true
  | .thumbLdrPc .. => true
  | .thumbStrReg .. => true
  | .thumbStrbReg .. => true
  | .thumbLdrReg .. => true
  | .thumbLdrbReg .. => true
  | .thumbStrhReg .. => true
  | .thumbLdsbReg .. => true
  | .thumbLdrhReg .. => true
  | .thumbLdshReg .. => true
  | .thumbStrImm .. => true
  | .thumbLdrImm .. => true
  | .thumbStrbImm .. => true
  | .thumbLdrbImm .. => true
  | .thumbStrhImm .. => true
  | .thumbLdrhImm .. => true
  | .thumbStrSp .. => true
  | .thumbLdrSp .. => true
  | .thumbAddPc .. => true
  | .thumbAddSp .. => true
  | .thumbIncSp .. => true
  | .thumbDecSp .. => true
  | .thumbPush .. => true
  | .thumbPop .. => true
  | .thumbUndef1011 .. => true
  | .thumbStmia .. => true
  | .thumbLdmia .. => true
  | .thumbSwi .. => true
  | .thumbUndefCond .. => true
  | .thumbBcond .. => true
  | .thumbB .. => true
  | .thumbUndefBlx .. => true
  | .thumbBlPrefix .. => true
  | .thumbBlSuffix .. => true

/-- Decode the word of the instruction's own length. -/
def decodeWord (thumb : Bool) (w : Nat) : Instr := if thumb then decodeThumb w else decodeArm w

/-- The bytes of an instruction as the hardware stores them, lowest address first (20_memory.md R118). -/
def wordBytes (thumb : Bool) (w : Nat) : List Byte :=
  if thumb then [BitVec.ofNat 8 w, BitVec.ofNat 8 (w / 0x100)]
  else [BitVec.ofNat 8 w, BitVec.ofNat 8 (w / 0x100), BitVec.ofNat 8 (w / 0x10000), BitVec.ofNat 8 (w / 0x1000000)]

/-- The encoder to bytes. -/
def encodeBytes (i : Instr) : List Byte := wordBytes i.isThumb (encode i)

/-- The instruction the decoder reads from bits numbered as spec/opcode_table.json numbers them: a 16-bit row is a
Thumb halfword, a 32-bit row an ARM word; no row has another length. -/
def decodeTableWord (nbits w : Nat) : Option Instr :=
  if nbits = 0 ∨ nbits > 32 then none
  else
    let thumb := decide (nbits ≤ 16)
    match decodeBytes thumb (wordBytes thumb w) with
    | .ok (i, _) => some i
    | .error _ => none

end Sys2Proof
end

