-- ==== Sys2Proof/Machine/Fetch.lean ====
section
/-! DEFINITION. Prefetch and fetch (20_memory.md R102, R113, R127), the prefetched slots that a store made stale
(70_reset_and_hazards.md R870), and placing an instruction where the next step fetches it. -/

namespace Sys2Proof.Machine

/-- Whether the prefetch of an address reads the bus: a mapped region other than I/O (R113). -/
def prefetchable (a : Nat) : Bool :=
  match regionOf a with
  | .unmapped => false
  | .io => false
  | .bios => true
  | .ewram => true
  | .iwram => true
  | .palette => true
  | .vram => true
  | .oam => true
  | .rom _ => true
  | .backup => true

/-- MemFetch at an address, in the width of the state (R102). -/
def State.fetchAt (s : State) (a : Word) : Word := busRead s.dev s.fetchView s.codeWidth a

/-- The prefetch of the instruction two ahead: `prefetch_latch`, a Thumb halfword doubled, and from the BIOS region the
aligned word into `bios_latch` (R102, R113). -/
def State.prefetch (s : State) : State :=
  let f := s.pcAhead
  if prefetchable f.toNat then
    let w := s.fetchAt f
    let s1 := { s with prefetchLatch := if s.cpsr.t then wordOf (loHalf w) (loHalf w) else w }
    if f.toNat < 0x4000 then { s1 with biosLatch := busRead s.dev s.fetchView .word f } else s1
  else s

/-- The words that stores overwrote in a prefetched slot: what may run there besides its present word (R870). -/
def staleWords (l : List StaleSlot) (a : Word) : List Word := (l.filter fun x => x.addr == a).map StaleSlot.old

/-- One of the words given or the present one, by free choices: each is taken or passed over in turn. -/
def State.pickWord (now : Word) : List Word → State → Word × State
  | [], s => (now, s)
  | w :: ws, s => if s.drawBit.1 then (w, s.drawBit.2) else State.pickWord now ws s.drawBit.2

/-- The instruction word at pc: from the bus, or, in a slot a store has made stale, an old word or the new by a free
choice (R870). -/
def State.fetch (s : State) : Word × State :=
  match s.dev.params.selfModify with
  | .executableDefault => (s.fetchAt s.pc, s)
  | .draw => s.pickWord (s.fetchAt s.pc) (staleWords s.stale s.pc)

/-- Whether a fetch at an address may read what a store of the step before d wrote. RAM changes where a store writes, and
every address of the EEPROM window is its one port. In I/O and in the backup window a word may change though no store
wrote it, and is then the new one (20_memory.md R103, R116, R127). -/
def storeReaches (d : Devices) (w : Width) (a : Nat) : Bool :=
  match regionOf a with
  | .bios => false
  | .unmapped => false
  | .rom _ => inEepromWindow d a
  | .ewram => true
  | .iwram => true
  | .io => (portHalves w (alignTo w a)).any d.portStored.contains
  | .palette => true
  | .vram => true
  | .oam => true
  | .backup => (portHalves w (alignTo w a)).any d.portStored.contains

/-- The stale slots at a after a step: those of before it, and the word it had then if a store of the step wrote there
and it reads otherwise now (R870). -/
def staleSlot (before after : State) (a : Word) : List StaleSlot :=
  let kept := before.stale.filter fun x => x.addr == a
  let old := before.fetchAt a
  if storeReaches after.dev before.codeWidth a.toNat &&
      busRead after.dev before.fetchView before.codeWidth a != old then
    kept ++ [{ addr := a, old := old }]
  else kept

/-- The slots at the two addresses after the instruction at `before` that a store of its step made stale; leaving the
sequence, for another address or another instruction set, empties the pipeline (R870; notes/assumptions/9). -/
def staleAfter (before after : State) : List StaleSlot :=
  let next := before.pc + before.instrBytes
  if after.pc = next ∧ after.cpsr.t = before.cpsr.t then
    staleSlot before after next ++ staleSlot before after (next + before.instrBytes)
  else []

/-- The canonical address of the byte a fetch at an address reads, `none` where no memory is. -/
def fetchKey (d : Devices) (a : Nat) : Option Nat :=
  match regionOf a with
  | .bios => some a
  | .rom _ => some (0x08000000 + romOffset d a)
  | .unmapped => none
  | .io => none
  | .backup => none
  | .ewram => ramKey a
  | .iwram => ramKey a
  | .palette => ramKey a
  | .vram => ramKey a
  | .oam => ramKey a

/-- Put a byte where a fetch at an address reads it, loading ROM as far as needed. -/
def placeByte (d : Devices) (a : Nat) (b : Byte) : Devices :=
  match fetchKey d a with
  | none => d
  | some k =>
    { d with
      mem := cellWrite d.mem k b
      romSize := if 0x08000000 ≤ k then max d.romSize (k - 0x08000000 + 1) else d.romSize }

/-- Put bytes at consecutive addresses. -/
def placeBytes : List Byte → Nat → Devices → Devices
  | [], _, d => d
  | b :: bs, a, d => placeBytes bs (a + 1) (placeByte d a b)

/-- Make the next step fetch and run an instruction of nbits bits: it is loaded at pc, T is set for its width, and
neither a halt, a pause, a breakpoint nor a stale slot stands before it. -/
def State.placeInstr (s : State) (nbits w : Nat) : State :=
  let thumb := decide (nbits ≤ 16)
  let a := alignTo (if thumb then .half else .word) s.pc.toNat
  { s with
    cpsr := { s.cpsr with t := thumb }
    stale := []
    dbg := { s.dbg with bpSkip := true }
    dev := { placeBytes (wordBytes thumb (w % 2 ^ nbits)) a s.dev with run := .running } }

end Sys2Proof.Machine
end

