-- ==== Sys2Proof/Machine/Cycle.lean ====
section
/-! DEFINITION. Step() by run state (70_reset_and_hazards.md R856), with the debug checks of 60_exceptions.md R682 to
R687. `stepCycles` holds what the step returns. -/

namespace Sys2Proof.Machine

/-- The CPU state a snapshot records (60_exceptions.md R685). -/
def State.snapshot (s : State) : Snapshot :=
  { regs := s.regs, pc := s.pc, cpsr := s.cpsr, spsrFiq := s.spsrFiq, spsrIrq := s.spsrIrq, spsrSvc := s.spsrSvc
    spsrAbt := s.spsrAbt, spsrUnd := s.spsrUnd, run := s.dev.run, intrwaitMask := s.intrwaitMask }

/-- Push a snapshot while single-stepping or with a breakpoint set, dropping the oldest beyond the ring (R685). -/
def State.pushSnapshot (s : State) : State :=
  if s.dbg.singleStep || !s.dbg.breakpoints.isEmpty then
    { s with dbg := { s.dbg with
      ring := (s.snapshot :: s.dbg.ring).take (Config.snapshotRingLessOne + 1) } }
  else s

/-- Whether a breakpoint stops the step before its instruction (R682). -/
def breakpointHit (s : State) : Bool := s.dbg.breakpoints.contains s.pc && !s.dbg.bpSkip

/-- Whether the watchdog samples pc at the end of this step: in the step's cycles, counted from 0 if it reset the
machine, `cycle_count` passed a multiple of WATCHDOG_CYCLES while Running (R687; notes/assumptions/21). -/
def watchdogDue (s : State) : Bool :=
  s.dev.run == .running &&
    (s.cycleCount - BitVec.ofNat 64 s.stepCycles).toNat / Config.watchdogCycles !=
      s.cycleCount.toNat / Config.watchdogCycles

/-- How many consecutive samples equal the one before, after a sample of pc. -/
def watchdogCount (g : Debug) (pc : Word) : Nat := if g.watchdogLast = some pc then g.watchdogEqual + 1 else 0

/-- The watchdog (R687): a due sample is compared with the last, and a report made when the count of equal samples
reaches the threshold. Only its own three fields depend on the OPEN parameters. -/
def watchdogSample (s : State) : State :=
  let due := watchdogDue s
  let n := watchdogCount s.dbg s.pc
  { s with dbg := { s.dbg with
    watchdogLast := if due then some s.pc else s.dbg.watchdogLast
    watchdogEqual := if due then n else s.dbg.watchdogEqual
    watchdogReports := s.dbg.watchdogReports + (if due && n == Config.watchdogThreshold then 1 else 0) } }

/-- Add the step's cycles to `cycle_count`. -/
def State.countCycles (s : State) : State := { s with cycleCount := s.cycleCount + BitVec.ofNat 64 s.stepCycles }

/-- The end of a step: the poll, with its cycles, and the cycle count (R856). -/
def pollAndCount (s : State) : Result := andThen (pollAndAdvance s) fun s1 => .next s1.countCycles

/-- The keypad evaluation of a step (60_exceptions.md R661). -/
def State.keypad (s : State) : State := { s with dev := evalKeypad s.dev }

/-- Set the run state. -/
def State.setRun (s : State) (r : RunState) : State := { s with dev := { s.dev with run := r } }

/-- What stands after the poll in a Running step: the watchdog, the stale slots and the single-step pause (R856). -/
def endRunning (before s : State) : State :=
  let s1 := watchdogSample s
  let s2 := { s1 with stale := staleAfter before s1 }
  if s2.dbg.singleStep && s2.dev.run == .running then s2.setRun (.paused none) else s2

/-- What follows the instruction in a Running step: DMA, the device advance, the keypad and the poll (R856). -/
def afterInstr (before s : State) : Result :=
  let s1 := { s with dbg := { s.dbg with bpSkip := false } }
  andThen (runImmediateDma s1) fun s2 =>
  andThen (advanceDevices s2.stepCycles s2) fun s3 =>
  andThen (pollAndCount s3.keypad) fun s4 => .next (endRunning before s4)

/-- No store of this step has been made yet. -/
def State.noStores (s : State) : State := { s with dev := { s.dev with portStored := [] } }

/-- What precedes the instruction in a Running step: the snapshot and the prefetch (R856). -/
def beforeInstr (s : State) : State := ({ s.noStores with stepCycles := 0 }.pushSnapshot).prefetch

/-- The instruction a Running step decodes, and the state it executes in. -/
def fetchInstr (s : State) : Instr × State :=
  let f := (beforeInstr s).fetch
  (decodeWord s.cpsr.t f.1.toNat, f.2)

/-- The instruction's cycles under CYCLE_COST: as its meaning charged them by the table, or, where the table is
replaced, any number (92_eei_decisions.md D7; notes/assumptions/35). -/
def State.priced (s : State) : State :=
  match s.dev.params.cycleCost with
  | .table => s
  | .replaced => { s with stepCycles := Config.instrCycles s.freeCount, freeCount := s.freeCount + 1 }

/-- A Running step that executes an instruction (R856). -/
def executeStep (s : State) : Result :=
  let f := fetchInstr s
  andThen (exec f.1 f.2) fun t => afterInstr (beforeInstr s) t.priced

/-- A Running step (R856). -/
def runningStep (s : State) : Result :=
  if breakpointHit s then .next { s.setRun (.paused none) with stepCycles := 0 } else executeStep s

/-- A Halted(Halt) step: HALT_QUANTUM cycles, then the wake by IE AND IF, whatever IME and I are (R627, R640, R856). -/
def haltedStep (s : State) : Result :=
  andThen (advanceDevices s.dev.params.haltQuantum { s with stepCycles := s.dev.params.haltQuantum }) fun s1 =>
    let s2 := s1.keypad
    pollAndCount (if pendingIrqs s2.dev ≠ 0 then s2.setRun .running else s2)

/-- A Halted(Stop) step: nothing passes until a keypad, Game Pak or serial request wakes the CPU (R642, R856). -/
def stoppedStep (s : State) : Result :=
  let s1 := { s with stepCycles := 0 }
  if s.dev.ie &&& s.dev.iflag &&& 0x3080 ≠ 0 then pollAndCount (s1.setRun .running) else .next s1

/-- Step() (R856). -/
def stepMachine (s : State) : Result :=
  match s.dev.run with
  | .running => runningStep s
  | .halted .halt => haltedStep s
  | .halted .stop => stoppedStep s
  | .paused _ => .next { s with stepCycles := 0 }

end Sys2Proof.Machine
end

