-- ==== Sys2Proof/Machine/Step.lean ====
section
/-! DEFINITION. The step of the machine, and the placing of an instruction before it. -/

namespace Sys2Proof.Machine

/-- One Step() (70_reset_and_hazards.md R856). -/
def step (s : State) : Host.Outcome State Fault Refusal := stepMachine s

/-- The state whose next step fetches and runs the instruction of nbits bits w (notes/assumptions/8). -/
def State.withFetchWord (s : State) (nbits w : Nat) : State := s.placeInstr nbits w

end Sys2Proof.Machine
end

