-- ==== Sys2Proof/Machine/HostApi.lean ====
section
/-! DEFINITION. The host-facing calls (60_exceptions.md R680 to R688, 20_memory.md R133): functions between steps. -/

namespace Sys2Proof.Machine

/-- Step() -> cycles (R681). -/
def hostCycles (s : State) : Nat := s.stepCycles

/-- Reset() (70_reset_and_hazards.md R850). -/
def hostReset (s : State) : Result := resetMachine s

/-- UpdateInput: bit i = 1 is button i pressed, and the keypad condition is evaluated (R660, R661). -/
def updateInput (s : State) (pressed : BitVec 10) : State :=
  { s with dev := evalKeypad { s.dev with keyinput := (~~~pressed).zeroExtend 16 } }

/-- GetFramebuffer: the published frame (64_ppu.md R743). -/
def getFramebuffer (s : State) : Frame := s.dev.ppu.front

/-- GetPC (R688). -/
def getPC (s : State) : Word := s.pc

/-- GetRegister: the current mode's bank, or the address of the next instruction (R688). -/
def getRegister (s : State) (i : Reg) : Word := if i = 15 then s.pc else s.bankedReg s.cpsr.m i

/-- SetRegister: the current bank, or pc aligned by T, at no cost; a new pc empties the stale slots as a branch does
(R688; notes/assumptions/9). -/
def setRegister (s : State) (i : Reg) (v : Word) : State :=
  if i = 15 then { s with pc := alignPc s.cpsr.t v, stale := [] } else s.setReg i v

/-- GetCPSR (R688). -/
def getCPSR (s : State) : Word := psrWord s.cpsr

/-- AddBreakpoint: insert into the set (R682). -/
def addBreakpoint (s : State) (a : Word) : State :=
  if s.dbg.breakpoints.contains a then s
  else { s with dbg := { s.dbg with breakpoints := a :: s.dbg.breakpoints } }

/-- ClearBreakpoints (R682). -/
def clearBreakpoints (s : State) : State := { s with dbg := { s.dbg with breakpoints := [] } }

/-- SetSingleStep (R683). -/
def setSingleStep (s : State) (on : Bool) : State := { s with dbg := { s.dbg with singleStep := on } }

/-- Continue: leave a pause, with the one-shot skip, restoring the halt the pause interrupted (R684). -/
def continueRun (s : State) : State :=
  match s.dev.run with
  | .paused none => { s.setRun .running with dbg := { s.dbg with bpSkip := true } }
  | .paused (some k) => { s.setRun (.halted k) with dbg := { s.dbg with bpSkip := true } }
  | .running => s
  | .halted _ => s

/-- The halt a run state is in, for a pause to record. -/
def haltOf : RunState → Option HaltKind
  | .running => none
  | .halted k => some k
  | .paused k => k

/-- StepBack: the newest snapshot into the CPU, and a pause; memory and devices are not restored, and the stale slots are
emptied (R685; notes/assumptions/9). -/
def stepBack (s : State) : State :=
  match s.dbg.ring with
  | [] => s
  | n :: ns =>
    { s.setRun (.paused (haltOf n.run)) with
      regs := n.regs, pc := n.pc, cpsr := n.cpsr, spsrFiq := n.spsrFiq, spsrIrq := n.spsrIrq, spsrSvc := n.spsrSvc
      spsrAbt := n.spsrAbt, spsrUnd := n.spsrUnd, intrwaitMask := n.intrwaitMask, stale := []
      dbg := { s.dbg with ring := ns } }

/-- Write bytes at consecutive canonical addresses. -/
def writeImage : List Byte → Nat → Memory → Memory
  | [], _, m => m
  | b :: bs, a, m => writeImage bs (a + 1) (cellWrite m a b)

/-- ROM_IMAGE and ROM_SIZE set to an image (20_memory.md R133). -/
def withRom (s : State) (image : List Byte) : State :=
  let kept := s.dev.mem.filter fun c => decide (c.1 < 0x08000000)
  { s with dev := { s.dev with mem := writeImage image 0x08000000 kept, romSize := image.length } }

/-- LoadROM (R133): true and the image loaded, with no reset (70_reset_and_hazards.md R854), or false and the state as
it was, where the file cannot be read (`none`) or its length is no ROM_SIZE (00_scope.md R9; notes/assumptions/8). -/
def loadRom (s : State) (file : Option (List Byte)) : Bool × State :=
  match file with
  | none => (false, s)
  | some image => if 0 < image.length ∧ image.length ≤ 0x02000000 then (true, withRom s image) else (false, s)

/-- LoadBackup (R133): true and the BackupStore given the buffer, or false and the state as it was, where the snapshot
cannot be read (`none`). -/
def loadBackup (s : State) (file : Option (List Byte)) : Bool × State :=
  match file with
  | none => (false, s)
  | some image => (true, { s with dev := backupCall s.dev (.load image) })

/-- GetBackupSnapshot (R133): a buffer just loaded comes back verbatim; after writes it is the BackupStore's
(notes/assumptions/6). -/
def getBackupSnapshot (s : State) : List Byte :=
  match s.dev.backup with
  | .load image :: _ => image
  | calls => Config.backupSnapshot s.dev.params.saveType calls

/-- BIOS_IMAGE set to an image of 16 KiB, as supplied (70_reset_and_hazards.md R852). -/
def withBios (s : State) (image : List Byte) : State :=
  { s with
    dev := { s.dev with
      mem := writeImage image 0 s.dev.mem
      params := { s.dev.params with biosKind := .supplied } } }

/-- Supplying BIOS_IMAGE (R850, R852): an image that is not 16 KiB long is none, and the state stays as it was
(notes/assumptions/38). -/
def loadBios (s : State) (image : List Byte) : Bool × State :=
  if image.length = 0x4000 then (true, withBios s image) else (false, s)

end Sys2Proof.Machine
end

