-- ==== Sys2Proof/Safety.lean ====
section
/-! DEFINITION. What the statements are said with: the cost terms of 70_reset_and_hazards.md R880, the instructions of one
shape as tables, what each instruction may write, and the invariants of a safe run. -/

namespace Sys2Proof.Machine

/-- Sc: one sequential code access at pc (70_reset_and_hazards.md R880). -/
def State.sc (s : State) : Nat := accessCost s.dev s.codeWidth s.pc .seq

/-- Nc: one non-sequential code access at pc (R880). -/
def State.nc (s : State) : Nat := accessCost s.dev s.codeWidth s.pc .nonseq

/-- Nd: one non-sequential data access (R880). -/
def State.nd (s : State) (w : Width) (a : Word) : Nat := accessCost s.dev w a .nonseq

/-- The refill after a branch to an address, in the state of T: N there and S at the next instruction (R880, R882). -/
def State.refillAt (s : State) (pc : Word) : Nat :=
  accessCost s.dev s.codeWidth pc .nonseq + accessCost s.dev s.codeWidth (pc + s.instrBytes) .seq

/-- The state at another pc, n cycles later: nothing else differs. -/
def State.goes (s : State) (pc : Word) (n : Nat) : State := { s with pc := pc, stepCycles := s.stepCycles + n }

/-- The state with one of r0 to r14 of a mode written: nothing else differs; name r15 writes nothing. -/
def State.withReg (s : State) (m : BitVec 5) (i : Reg) (v : Word) : State :=
  if i = 15 then s else { s with regs := s.regs.set (bankIndex m i) v }

/-- Whether an operation only tests (40_arm_dataproc.md R301). -/
def AluOp.isTest : AluOp → Bool
  | .tst => true
  | .teq => true
  | .cmp => true
  | .cmn => true
  | .and => false
  | .eor => false
  | .sub => false
  | .rsb => false
  | .add => false
  | .adc => false
  | .sbc => false
  | .rsc => false
  | .orr => false
  | .mov => false
  | .bic => false
  | .mvn => false

/-- Whether an operation's C comes from the shifter (40_arm_dataproc.md R302). -/
def AluOp.isLogical : AluOp → Bool
  | .and => true
  | .eor => true
  | .tst => true
  | .teq => true
  | .orr => true
  | .mov => true
  | .bic => true
  | .mvn => true
  | .sub => false
  | .rsb => false
  | .add => false
  | .adc => false
  | .sbc => false
  | .rsc => false
  | .cmp => false
  | .cmn => false

/-- The second operand's forms in ARM data processing. -/
inductive DpForm where
  | imm (rot : BitVec 4) (imm : BitVec 8)
  | shift (amt : BitVec 5) (sh : ShiftType) (rm : Reg)
  | reg (rs : Reg) (sh : ShiftType) (rm : Reg)
  deriving DecidableEq, Repr

/-- The ARM data-processing instruction of an operation and a form: all 48 of opcode rows 21 to 68. The tests have
neither S nor Rd, and MOV and MVN no Rn. -/
def dpInstr (op : AluOp) (cond : Cond) (sets : Bool) (rn rd : Reg) (f : DpForm) : Instr :=
  match op, f with
  | .and, .imm rot imm => .armAndImm cond sets rn rd rot imm
  | .and, .shift amt sh rm => .armAndShift cond sets rn rd amt sh rm
  | .and, .reg rs sh rm => .armAndReg cond sets rn rd rs sh rm
  | .eor, .imm rot imm => .armEorImm cond sets rn rd rot imm
  | .eor, .shift amt sh rm => .armEorShift cond sets rn rd amt sh rm
  | .eor, .reg rs sh rm => .armEorReg cond sets rn rd rs sh rm
  | .sub, .imm rot imm => .armSubImm cond sets rn rd rot imm
  | .sub, .shift amt sh rm => .armSubShift cond sets rn rd amt sh rm
  | .sub, .reg rs sh rm => .armSubReg cond sets rn rd rs sh rm
  | .rsb, .imm rot imm => .armRsbImm cond sets rn rd rot imm
  | .rsb, .shift amt sh rm => .armRsbShift cond sets rn rd amt sh rm
  | .rsb, .reg rs sh rm => .armRsbReg cond sets rn rd rs sh rm
  | .add, .imm rot imm => .armAddImm cond sets rn rd rot imm
  | .add, .shift amt sh rm => .armAddShift cond sets rn rd amt sh rm
  | .add, .reg rs sh rm => .armAddReg cond sets rn rd rs sh rm
  | .adc, .imm rot imm => .armAdcImm cond sets rn rd rot imm
  | .adc, .shift amt sh rm => .armAdcShift cond sets rn rd amt sh rm
  | .adc, .reg rs sh rm => .armAdcReg cond sets rn rd rs sh rm
  | .sbc, .imm rot imm => .armSbcImm cond sets rn rd rot imm
  | .sbc, .shift amt sh rm => .armSbcShift cond sets rn rd amt sh rm
  | .sbc, .reg rs sh rm => .armSbcReg cond sets rn rd rs sh rm
  | .rsc, .imm rot imm => .armRscImm cond sets rn rd rot imm
  | .rsc, .shift amt sh rm => .armRscShift cond sets rn rd amt sh rm
  | .rsc, .reg rs sh rm => .armRscReg cond sets rn rd rs sh rm
  | .tst, .imm rot imm => .armTstImm cond rn rot imm
  | .tst, .shift amt sh rm => .armTstShift cond rn amt sh rm
  | .tst, .reg rs sh rm => .armTstReg cond rn rs sh rm
  | .teq, .imm rot imm => .armTeqImm cond rn rot imm
  | .teq, .shift amt sh rm => .armTeqShift cond rn amt sh rm
  | .teq, .reg rs sh rm => .armTeqReg cond rn rs sh rm
  | .cmp, .imm rot imm => .armCmpImm cond rn rot imm
  | .cmp, .shift amt sh rm => .armCmpShift cond rn amt sh rm
  | .cmp, .reg rs sh rm => .armCmpReg cond rn rs sh rm
  | .cmn, .imm rot imm => .armCmnImm cond rn rot imm
  | .cmn, .shift amt sh rm => .armCmnShift cond rn amt sh rm
  | .cmn, .reg rs sh rm => .armCmnReg cond rn rs sh rm
  | .orr, .imm rot imm => .armOrrImm cond sets rn rd rot imm
  | .orr, .shift amt sh rm => .armOrrShift cond sets rn rd amt sh rm
  | .orr, .reg rs sh rm => .armOrrReg cond sets rn rd rs sh rm
  | .mov, .imm rot imm => .armMovImm cond sets rd rot imm
  | .mov, .shift amt sh rm => .armMovShift cond sets rd amt sh rm
  | .mov, .reg rs sh rm => .armMovReg cond sets rd rs sh rm
  | .bic, .imm rot imm => .armBicImm cond sets rn rd rot imm
  | .bic, .shift amt sh rm => .armBicShift cond sets rn rd amt sh rm
  | .bic, .reg rs sh rm => .armBicReg cond sets rn rd rs sh rm
  | .mvn, .imm rot imm => .armMvnImm cond sets rd rot imm
  | .mvn, .shift amt sh rm => .armMvnShift cond sets rd amt sh rm
  | .mvn, .reg rs sh rm => .armMvnReg cond sets rd rs sh rm

/-- Operand Rn as a form sees it: r15 is pc + 12 in the register-shift forms and pc + 8 in the others (R300, R34). -/
def dpFirst (s : State) (rn : Reg) : DpForm → Word
  | .imm _ _ => s.readReg rn
  | .shift _ _ _ => s.readReg rn
  | .reg _ _ _ => s.readRegFar rn

/-- The shifter operand of a form (30_encoding.md R206, R207). -/
def dpSecond (s : State) : DpForm → ShiftOut
  | .imm rot imm => immOperand rot imm s.cpsr.c
  | .shift amt sh rm => immShift sh (s.readReg rm) amt s.cpsr.c
  | .reg rs sh rm => regShift sh (s.readRegFar rm) (s.readRegFar rs) s.cpsr.c

/-- The cycles of a form besides Sc: one I in the register-shift forms (R880). -/
def dpExtra : DpForm → Nat
  | .imm _ _ => 0
  | .shift _ _ _ => 0
  | .reg _ _ _ => 1

/-- An ARM load: its condition, address, width, destination and loaded value. -/
structure LoadForm where
  cond  : Cond
  addr  : AddrOut
  width : Width
  rd    : Reg
  value : Word
  deriving DecidableEq, Repr

/-- A load by an addressing form, with the value that a function gives of the address. -/
def loadForm (s : State) (cond : Cond) (o : AddrOut) (w : Width) (rd : Reg) (v : State → Word → Word) : LoadForm :=
  { cond := cond, addr := o, width := w, rd := rd, value := v s o.addr }

/-- The nine ARM loads: LDR, LDRB pre- and post-indexed, LDRT, LDRBT, LDRH, LDRSB, LDRSH. -/
def armLoadOf (i : Instr) (s : State) : Option LoadForm :=
  match i with
  | .armLdrPre cond w m rd => some (loadForm s cond (addr2Pre s w m) .word rd loadWordValue)
  | .armLdrPost cond m rd => some (loadForm s cond (addr2Post s m) .word rd loadWordValue)
  | .armLdrbPre cond w m rd => some (loadForm s cond (addr2Pre s w m) .byte rd loadByteValue)
  | .armLdrbPost cond m rd => some (loadForm s cond (addr2Post s m) .byte rd loadByteValue)
  | .armLdrt cond m rd => some (loadForm s cond (addr2Post s m) .word rd loadWordValue)
  | .armLdrbt cond m rd => some (loadForm s cond (addr2Post s m) .byte rd loadByteValue)
  | .armLdrh cond m rd => some (loadForm s cond (addr3 s m) .half rd loadHalfValue)
  | .armLdrsb cond m rd => some (loadForm s cond (addr3 s m) .byte rd loadSignedByteValue)
  | .armLdrsh cond m rd => some (loadForm s cond (addr3 s m) .half rd loadSignedHalfValue)
  | _ => none

/-- An ARM store: its condition, address, width and the register stored. -/
structure StoreForm where
  cond  : Cond
  addr  : AddrOut
  width : Width
  rd    : Reg
  deriving DecidableEq, Repr

/-- The seven ARM stores: STR, STRB pre- and post-indexed, STRT, STRBT, STRH. -/
def armStoreOf (i : Instr) (s : State) : Option StoreForm :=
  match i with
  | .armStrPre cond w m rd => some { cond := cond, addr := addr2Pre s w m, width := .word, rd := rd }
  | .armStrPost cond m rd => some { cond := cond, addr := addr2Post s m, width := .word, rd := rd }
  | .armStrbPre cond w m rd => some { cond := cond, addr := addr2Pre s w m, width := .byte, rd := rd }
  | .armStrbPost cond m rd => some { cond := cond, addr := addr2Post s m, width := .byte, rd := rd }
  | .armStrt cond m rd => some { cond := cond, addr := addr2Post s m, width := .word, rd := rd }
  | .armStrbt cond m rd => some { cond := cond, addr := addr2Post s m, width := .byte, rd := rd }
  | .armStrh cond m rd => some { cond := cond, addr := addr3 s m, width := .half, rd := rd }
  | _ => none

/-- What an addressing form leaves in the base register: r15 as a base is left to the branch. -/
def AddrOut.applyBase (o : AddrOut) (s : State) : State :=
  match o.wback with
  | some v => s.withReg s.cpsr.m o.base v
  | none => s

/-- Where a transfer goes on that does not load r15: the next instruction, or a written-back r15. -/
def AddrOut.nextPc (o : AddrOut) : Option Word := if o.base = 15 then o.wback else none

/-- A swap: condition, width, Rn, Rd, Rm and the loaded value. -/
structure SwapForm where
  cond  : Cond
  width : Width
  rn    : Reg
  rd    : Reg
  rm    : Reg
  value : Word
  deriving DecidableEq, Repr

/-- SWP and SWPB. -/
def armSwapOf (i : Instr) (s : State) : Option SwapForm :=
  match i with
  | .armSwp cond rn rd rm =>
    some { cond := cond, width := .word, rn := rn, rd := rd, rm := rm, value := loadWordValue s (s.readReg rn) }
  | .armSwpb cond rn rd rm =>
    some { cond := cond, width := .byte, rn := rn, rd := rd, rm := rm, value := loadByteValue s (s.readReg rn) }
  | _ => none

/-- A Thumb operation of formats 1 to 4 that writes a low register and the flags: operation, Rd, first operand, shifter
operand, cycles besides Sc. -/
structure ThumbOp where
  op    : AluOp
  rd    : LowReg
  first : Word
  snd   : ShiftOut
  extra : Nat
  deriving DecidableEq, Repr

/-- Such an operation on two values, with C as it is. -/
def plainOp (s : State) (op : AluOp) (rd : LowReg) (a b : Word) : ThumbOp :=
  { op := op, rd := rd, first := a, snd := { value := b, carry := s.cpsr.c }, extra := 0 }

/-- Such a shift. -/
def shiftOp (rd : LowReg) (o : ShiftOut) (extra : Nat) : ThumbOp :=
  { op := .mov, rd := rd, first := 0, snd := o, extra := extra }

/-- The flag-setting Thumb operations that write a register, formats 1 to 4 but MUL (44_thumb_alu.md). -/
def thumbOpOf (i : Instr) (s : State) : Option ThumbOp :=
  let r := fun (x : LowReg) => s.readReg (lowReg x)
  match i with
  | .thumbLslImm off rs rd => some (shiftOp rd (immShift .lsl (r rs) off s.cpsr.c) 0)
  | .thumbLsrImm off rs rd => some (shiftOp rd (immShift .lsr (r rs) off s.cpsr.c) 0)
  | .thumbAsrImm off rs rd => some (shiftOp rd (immShift .asr (r rs) off s.cpsr.c) 0)
  | .thumbAddReg rn rs rd => some (plainOp s .add rd (r rs) (r rn))
  | .thumbSubReg rn rs rd => some (plainOp s .sub rd (r rs) (r rn))
  | .thumbAddImm3 imm rs rd => some (plainOp s .add rd (r rs) (BitVec.ofNat 32 imm.toNat))
  | .thumbSubImm3 imm rs rd => some (plainOp s .sub rd (r rs) (BitVec.ofNat 32 imm.toNat))
  | .thumbMovImm rd imm => some (plainOp s .mov rd 0 (BitVec.ofNat 32 imm.toNat))
  | .thumbAddImm8 rd imm => some (plainOp s .add rd (r rd) (BitVec.ofNat 32 imm.toNat))
  | .thumbSubImm8 rd imm => some (plainOp s .sub rd (r rd) (BitVec.ofNat 32 imm.toNat))
  | .thumbAnd rs rd => some (plainOp s .and rd (r rd) (r rs))
  | .thumbEor rs rd => some (plainOp s .eor rd (r rd) (r rs))
  | .thumbLslReg rs rd => some (shiftOp rd (regShift .lsl (r rd) (r rs) s.cpsr.c) 1)
  | .thumbLsrReg rs rd => some (shiftOp rd (regShift .lsr (r rd) (r rs) s.cpsr.c) 1)
  | .thumbAsrReg rs rd => some (shiftOp rd (regShift .asr (r rd) (r rs) s.cpsr.c) 1)
  | .thumbAdc rs rd => some (plainOp s .adc rd (r rd) (r rs))
  | .thumbSbc rs rd => some (plainOp s .sbc rd (r rd) (r rs))
  | .thumbRor rs rd => some (shiftOp rd (regShift .ror (r rd) (r rs) s.cpsr.c) 1)
  | .thumbNeg rs rd => some (plainOp s .sub rd 0 (r rs))
  | .thumbOrr rs rd => some (plainOp s .orr rd (r rd) (r rs))
  | .thumbBic rs rd => some (plainOp s .bic rd (r rd) (r rs))
  | .thumbMvn rs rd => some (plainOp s .mvn rd 0 (r rs))
  | _ => none

/-- The Thumb comparisons: operation and operands (44_thumb_alu.md R439, R450, R452, R453, R460). -/
def thumbTestOf (i : Instr) (s : State) : Option (AluOp × Word × Word) :=
  let r := fun (x : LowReg) => s.readReg (lowReg x)
  match i with
  | .thumbCmpImm rd imm => some (.cmp, r rd, BitVec.ofNat 32 imm.toNat)
  | .thumbTst rs rd => some (.tst, r rd, r rs)
  | .thumbCmp rs rd => some (.cmp, r rd, r rs)
  | .thumbCmn rs rd => some (.cmn, r rd, r rs)
  | .thumbCmpHi rs rd => some (.cmp, s.readReg rd, s.readReg rs)
  | _ => none

/-- The Thumb operations that write a register and no flag: the register and the value (44_thumb_alu.md R459, R461,
45_thumb_loadstore.md R487 to R490). -/
def thumbMoveOf (i : Instr) (s : State) : Option (Reg × Word) :=
  match i with
  | .thumbAddHi rs rd => some (rd, s.readReg rd + s.readReg rs)
  | .thumbMovHi rs rd => some (rd, s.readReg rs)
  | .thumbAddPc rd word => some (lowReg rd, ((s.pc + 4) &&& 0xFFFFFFFC) + BitVec.ofNat 32 (4 * word.toNat))
  | .thumbAddSp rd word => some (lowReg rd, s.readReg 13 + BitVec.ofNat 32 (4 * word.toNat))
  | .thumbIncSp word => some (13, s.readReg 13 + BitVec.ofNat 32 (4 * word.toNat))
  | .thumbDecSp word => some (13, s.readReg 13 - BitVec.ofNat 32 (4 * word.toNat))
  | _ => none

/-- A Thumb load or store: width, low register, address and, for a load, the value. -/
structure ThumbMem where
  width : Width
  rd    : LowReg
  addr  : Word
  value : Word
  deriving DecidableEq, Repr

/-- A Thumb load of the value that a function gives of the address. -/
def thumbLoadForm (s : State) (w : Width) (rd : LowReg) (a : Word) (v : State → Word → Word) : ThumbMem :=
  { width := w, rd := rd, addr := a, value := v s a }

/-- A base register plus a scaled immediate. -/
def thumbBaseImm (s : State) (rb : LowReg) (off scale : Nat) : Word :=
  s.readReg (lowReg rb) + BitVec.ofNat 32 (scale * off)

/-- The Thumb loads (45_thumb_loadstore.md formats 6 to 11). -/
def thumbLoadOf (i : Instr) (s : State) : Option ThumbMem :=
  match i with
  | .thumbLdrPc rd word =>
    some (thumbLoadForm s .word rd (((s.pc + 4) &&& 0xFFFFFFFC) + BitVec.ofNat 32 (4 * word.toNat)) loadWordValue)
  | .thumbLdrReg ro rb rd => some (thumbLoadForm s .word rd (thumbRegAddr s ro rb) loadWordValue)
  | .thumbLdrbReg ro rb rd => some (thumbLoadForm s .byte rd (thumbRegAddr s ro rb) loadByteValue)
  | .thumbLdsbReg ro rb rd => some (thumbLoadForm s .byte rd (thumbRegAddr s ro rb) loadSignedByteValue)
  | .thumbLdrhReg ro rb rd => some (thumbLoadForm s .half rd (thumbRegAddr s ro rb) loadHalfValue)
  | .thumbLdshReg ro rb rd => some (thumbLoadForm s .half rd (thumbRegAddr s ro rb) loadSignedHalfValue)
  | .thumbLdrImm off rb rd => some (thumbLoadForm s .word rd (thumbBaseImm s rb off.toNat 4) loadWordValue)
  | .thumbLdrbImm off rb rd => some (thumbLoadForm s .byte rd (thumbBaseImm s rb off.toNat 1) loadByteValue)
  | .thumbLdrhImm off rb rd => some (thumbLoadForm s .half rd (thumbBaseImm s rb off.toNat 2) loadHalfValue)
  | .thumbLdrSp rd word =>
    some (thumbLoadForm s .word rd (s.readReg 13 + BitVec.ofNat 32 (4 * word.toNat)) loadWordValue)
  | _ => none

/-- The Thumb stores (45_thumb_loadstore.md formats 7 to 11): width, the register stored and the address. -/
def thumbStoreOf (i : Instr) (s : State) : Option (Width × LowReg × Word) :=
  match i with
  | .thumbStrReg ro rb rd => some (.word, rd, thumbRegAddr s ro rb)
  | .thumbStrbReg ro rb rd => some (.byte, rd, thumbRegAddr s ro rb)
  | .thumbStrhReg ro rb rd => some (.half, rd, thumbRegAddr s ro rb)
  | .thumbStrImm off rb rd => some (.word, rd, thumbBaseImm s rb off.toNat 4)
  | .thumbStrbImm off rb rd => some (.byte, rd, thumbBaseImm s rb off.toNat 1)
  | .thumbStrhImm off rb rd => some (.half, rd, thumbBaseImm s rb off.toNat 2)
  | .thumbStrSp rd word => some (.word, rd, s.readReg 13 + BitVec.ofNat 32 (4 * word.toNat))
  | _ => none

/-- A block store: write-back, User bank, base and addresses (42_arm_loadstore.md R380, R382). -/
structure BlockForm where
  cond  : Cond
  wback : Bool
  user  : Bool
  rn    : Reg
  out   : BlockOut
  deriving DecidableEq, Repr

/-- STM, PUSH and STMIA. -/
def blockStoreOf (i : Instr) (s : State) : Option BlockForm :=
  match i with
  | .armStm cond p u us w rn list =>
    some { cond := cond, wback := w, user := us, rn := rn, out := blockAddr p u (s.readReg rn) list }
  | .thumbPush r list =>
    some { cond := .al, wback := true, user := false, rn := 13
           out := blockAddr true false (s.readReg 13) (thumbList list r 14) }
  | .thumbStmia rb list =>
    some { cond := .al, wback := true, user := false, rn := lowReg rb
           out := blockAddr false true (s.readReg (lowReg rb)) (thumbList list false 0) }
  | _ => none

/-- The address of word k of a block transfer (R380). -/
def BlockOut.wordAddr (b : BlockOut) (k : Nat) : Word := b.first + BitVec.ofNat 32 (4 * k)

/-- What a block store writes for register r, the k-th of its list: r15 as pc + 12 (pc + 6 in Thumb state), the base as
it was before the instruction in the first word and written back later, another register from the User bank or the
current mode's (R382, R384, R386). -/
def BlockForm.stored (f : BlockForm) (s : State) (r : Reg) (k : Nat) : Word :=
  if r = 15 then s.pcFar
  else
    let m := if f.user then modeUsr else s.cpsr.m
    if f.wback && k != 0 && bankIndex m r == bankIndex s.cpsr.m f.rn && f.rn != 15 then f.out.wback
    else s.bankedReg m r

/-- The stores of a block store in order: address and value. -/
def BlockForm.stores (f : BlockForm) (s : State) : List (Word × Word) :=
  (List.range f.out.regs.length).map fun k => (f.out.wordAddr k, f.stored s (f.out.regs.getD k 0) k)

/-- Word stores in order. -/
def writeWords (d : Devices) (l : List (Word × Word)) : Devices := l.foldl (fun d x => busWrite d .word x.1 x.2) d

/-- The cost of word stores in order, each priced in the devices as they are before it (70_reset_and_hazards.md R880;
notes/assumptions/23). -/
def storesCost : List (Word × Word) → Access → Devices → Nat
  | [], _, _ => 0
  | x :: xs, q, d => accessCost d .word x.1 q + storesCost xs .seq (busWrite d .word x.1 x.2)

/-- Where an instruction other than a software interrupt stores: width and address of each store. -/
def storesTo (i : Instr) (s : State) : List (Width × Word) :=
  match armStoreOf i s, armSwapOf i s, thumbStoreOf i s, blockStoreOf i s with
  | some f, _, _, _ => [(f.width, f.addr.addr)]
  | _, some f, _, _ => [(f.width, s.readReg f.rn)]
  | _, _, some f, _ => [(f.1, f.2.2)]
  | _, _, _, some f => (f.stores s).map fun x => (Width.word, x.1)
  | none, none, none, none => []

/-- The software interrupts. -/
def isSwi : Instr → Bool
  | .armSwi _ _ => true
  | .thumbSwi _ => true
  | _ => false

/-- The condition field of an ARM instruction; Thumb instructions but B<cond> have none (30_encoding.md R203). -/
def condOf : Instr → Option Cond
  | .armBx c _ => some c
  | .armMul c _ _ _ _ => some c
  | .armMla c _ _ _ _ _ => some c
  | .armUmull c _ _ _ _ _ => some c
  | .armUmlal c _ _ _ _ _ => some c
  | .armSmull c _ _ _ _ _ => some c
  | .armSmlal c _ _ _ _ _ => some c
  | .armSwp c _ _ _ => some c
  | .armSwpb c _ _ _ => some c
  | .armStrh c _ _ => some c
  | .armLdrh c _ _ => some c
  | .armLdrsb c _ _ => some c
  | .armLdrsh c _ _ => some c
  | .armUndefSignedStore c _ => some c
  | .armUndefMulSpace c _ => some c
  | .armMrs c _ _ => some c
  | .armMsrReg c _ _ _ => some c
  | .armMsrImm c _ _ _ _ => some c
  | .armUndefControl c _ => some c
  | .armUndefTestImm c _ => some c
  | .armAndImm c _ _ _ _ _ => some c
  | .armAndShift c _ _ _ _ _ _ => some c
  | .armAndReg c _ _ _ _ _ _ => some c
  | .armEorImm c _ _ _ _ _ => some c
  | .armEorShift c _ _ _ _ _ _ => some c
  | .armEorReg c _ _ _ _ _ _ => some c
  | .armSubImm c _ _ _ _ _ => some c
  | .armSubShift c _ _ _ _ _ _ => some c
  | .armSubReg c _ _ _ _ _ _ => some c
  | .armRsbImm c _ _ _ _ _ => some c
  | .armRsbShift c _ _ _ _ _ _ => some c
  | .armRsbReg c _ _ _ _ _ _ => some c
  | .armAddImm c _ _ _ _ _ => some c
  | .armAddShift c _ _ _ _ _ _ => some c
  | .armAddReg c _ _ _ _ _ _ => some c
  | .armAdcImm c _ _ _ _ _ => some c
  | .armAdcShift c _ _ _ _ _ _ => some c
  | .armAdcReg c _ _ _ _ _ _ => some c
  | .armSbcImm c _ _ _ _ _ => some c
  | .armSbcShift c _ _ _ _ _ _ => some c
  | .armSbcReg c _ _ _ _ _ _ => some c
  | .armRscImm c _ _ _ _ _ => some c
  | .armRscShift c _ _ _ _ _ _ => some c
  | .armRscReg c _ _ _ _ _ _ => some c
  | .armTstImm c _ _ _ => some c
  | .armTstShift c _ _ _ _ => some c
  | .armTstReg c _ _ _ _ => some c
  | .armTeqImm c _ _ _ => some c
  | .armTeqShift c _ _ _ _ => some c
  | .armTeqReg c _ _ _ _ => some c
  | .armCmpImm c _ _ _ => some c
  | .armCmpShift c _ _ _ _ => some c
  | .armCmpReg c _ _ _ _ => some c
  | .armCmnImm c _ _ _ => some c
  | .armCmnShift c _ _ _ _ => some c
  | .armCmnReg c _ _ _ _ => some c
  | .armOrrImm c _ _ _ _ _ => some c
  | .armOrrShift c _ _ _ _ _ _ => some c
  | .armOrrReg c _ _ _ _ _ _ => some c
  | .armMovImm c _ _ _ _ => some c
  | .armMovShift c _ _ _ _ _ => some c
  | .armMovReg c _ _ _ _ _ => some c
  | .armBicImm c _ _ _ _ _ => some c
  | .armBicShift c _ _ _ _ _ _ => some c
  | .armBicReg c _ _ _ _ _ _ => some c
  | .armMvnImm c _ _ _ _ => some c
  | .armMvnShift c _ _ _ _ _ => some c
  | .armMvnReg c _ _ _ _ _ => some c
  | .armUndefMedia c _ => some c
  | .armStrPre c _ _ _ => some c
  | .armStrPost c _ _ => some c
  | .armLdrPre c _ _ _ => some c
  | .armLdrPost c _ _ => some c
  | .armStrbPre c _ _ _ => some c
  | .armStrbPost c _ _ => some c
  | .armLdrbPre c _ _ _ => some c
  | .armLdrbPost c _ _ => some c
  | .armStrt c _ _ => some c
  | .armLdrt c _ _ => some c
  | .armStrbt c _ _ => some c
  | .armLdrbt c _ _ => some c
  | .armStm c _ _ _ _ _ _ => some c
  | .armLdm c _ _ _ _ _ _ => some c
  | .armB c _ => some c
  | .armBl c _ => some c
  | .armStc c _ _ _ _ _ _ _ _ => some c
  | .armLdc c _ _ _ _ _ _ _ _ => some c
  | .armCdp c _ _ _ _ _ _ => some c
  | .armMcr c _ _ _ _ _ _ => some c
  | .armMrc c _ _ _ _ _ _ => some c
  | .armSwi c _ => some c
  | .thumbLslImm _ _ _ => none
  | .thumbLsrImm _ _ _ => none
  | .thumbAsrImm _ _ _ => none
  | .thumbAddReg _ _ _ => none
  | .thumbSubReg _ _ _ => none
  | .thumbAddImm3 _ _ _ => none
  | .thumbSubImm3 _ _ _ => none
  | .thumbMovImm _ _ => none
  | .thumbCmpImm _ _ => none
  | .thumbAddImm8 _ _ => none
  | .thumbSubImm8 _ _ => none
  | .thumbAnd _ _ => none
  | .thumbEor _ _ => none
  | .thumbLslReg _ _ => none
  | .thumbLsrReg _ _ => none
  | .thumbAsrReg _ _ => none
  | .thumbAdc _ _ => none
  | .thumbSbc _ _ => none
  | .thumbRor _ _ => none
  | .thumbTst _ _ => none
  | .thumbNeg _ _ => none
  | .thumbCmp _ _ => none
  | .thumbCmn _ _ => none
  | .thumbOrr _ _ => none
  | .thumbMul _ _ => none
  | .thumbBic _ _ => none
  | .thumbMvn _ _ => none
  | .thumbAddHi _ _ => none
  | .thumbCmpHi _ _ => none
  | .thumbMovHi _ _ => none
  | .thumbBx _ => none
  | .thumbLdrPc _ _ => none
  | .thumbStrReg _ _ _ => none
  | .thumbStrbReg _ _ _ => none
  | .thumbLdrReg _ _ _ => none
  | .thumbLdrbReg _ _ _ => none
  | .thumbStrhReg _ _ _ => none
  | .thumbLdsbReg _ _ _ => none
  | .thumbLdrhReg _ _ _ => none
  | .thumbLdshReg _ _ _ => none
  | .thumbStrImm _ _ _ => none
  | .thumbLdrImm _ _ _ => none
  | .thumbStrbImm _ _ _ => none
  | .thumbLdrbImm _ _ _ => none
  | .thumbStrhImm _ _ _ => none
  | .thumbLdrhImm _ _ _ => none
  | .thumbStrSp _ _ => none
  | .thumbLdrSp _ _ => none
  | .thumbAddPc _ _ => none
  | .thumbAddSp _ _ => none
  | .thumbIncSp _ => none
  | .thumbDecSp _ => none
  | .thumbPush _ _ => none
  | .thumbPop _ _ => none
  | .thumbUndef1011 _ => none
  | .thumbStmia _ _ => none
  | .thumbLdmia _ _ => none
  | .thumbSwi _ => none
  | .thumbUndefCond _ => none
  | .thumbBcond c _ => some c
  | .thumbB _ => none
  | .thumbUndefBlx _ => none
  | .thumbBlPrefix _ => none
  | .thumbBlSuffix _ => none

/-- What an MSR moves: condition, target, field mask and value (40_arm_dataproc.md R320). -/
structure MsrForm where
  cond  : Cond
  spsr  : Bool
  mask  : BitVec 4
  value : Word
  deriving DecidableEq, Repr

/-- The two MSR forms. -/
def msrOf (i : Instr) (s : State) : Option MsrForm :=
  match i with
  | .armMsrReg cond r mask rm => some { cond := cond, spsr := r, mask := mask, value := s.readReg rm }
  | .armMsrImm cond r mask rot imm =>
    some { cond := cond, spsr := r, mask := mask, value := (BitVec.ofNat 32 imm.toNat).rotateRight (2 * rot.toNat) }
  | _ => none

/-- The bits an MSR of the CPSR writes: field f, and in a privileged mode field c without T (R320). -/
def msrCpsrMask (m : BitVec 5) (mask : BitVec 4) : Word :=
  (if mask.getLsbD 3 then 0xF0000000 else 0) ||| (if mask.getLsbD 0 && m != modeUsr then 0x000000DF else 0)

/-- The bits an MSR of an SPSR writes (R320). -/
def msrSpsrMask (mask : BitVec 4) : Word :=
  (if mask.getLsbD 3 then 0xF0000000 else 0) ||| (if mask.getLsbD 0 then 0x000000FF else 0)

/-- A word with the bits of a mask replaced. -/
def maskedWord (old new mask : Word) : Word := (old &&& ~~~mask) ||| (new &&& mask)

/-- A 32-bit multiply: condition, S, destination, product and cycles besides Sc (R880). -/
structure MulForm where
  cond   : Cond
  sets   : Bool
  rd     : Reg
  res    : Word
  cycles : Nat
  deriving DecidableEq, Repr

/-- MUL, MLA and Thumb MUL, with the product modulo 2^32 (41_arm_multiply.md R341, R342, 44_thumb_alu.md R455). -/
def mulOf (i : Instr) (s : State) : Option MulForm :=
  match i with
  | .armMul cond sets rd rs rm =>
    some { cond := cond, sets := sets, rd := rd, cycles := mulCyclesSigned (s.readReg rs)
           res := BitVec.ofNat 32 ((s.readReg rm).toNat * (s.readReg rs).toNat) }
  | .armMla cond sets rd rn rs rm =>
    some { cond := cond, sets := sets, rd := rd, cycles := mulCyclesSigned (s.readReg rs) + 1
           res := BitVec.ofNat 32 ((s.readReg rm).toNat * (s.readReg rs).toNat + (s.readReg rn).toNat) }
  | .thumbMul rs rd =>
    some { cond := .al, sets := true, rd := lowReg rd, cycles := mulCyclesSigned (s.readReg (lowReg rd))
           res := BitVec.ofNat 32 ((s.readReg (lowReg rd)).toNat * (s.readReg (lowReg rs)).toNat) }
  | _ => none

/-- A long multiply: condition, S, destinations, 64-bit result and cycles besides Sc. -/
structure LongMulForm where
  cond   : Cond
  sets   : Bool
  hi     : Reg
  lo     : Reg
  res    : BitVec 64
  cycles : Nat
  deriving DecidableEq, Repr

/-- The accumulator of a long multiply, RdHi : RdLo as a number. -/
def accumulator (s : State) (hi lo : Reg) : Nat := (s.readReg hi).toNat * 2 ^ 32 + (s.readReg lo).toNat

/-- UMULL, UMLAL, SMULL and SMLAL, with the exact integer result modulo 2^64 (41_arm_multiply.md R343 to R346). -/
def longMulOf (i : Instr) (s : State) : Option LongMulForm :=
  let un := fun (r : Reg) => (s.readReg r).toNat
  let si := fun (r : Reg) => (s.readReg r).toInt
  match i with
  | .armUmull cond sets hi lo rs rm =>
    some { cond := cond, sets := sets, hi := hi, lo := lo, res := BitVec.ofNat 64 (un rm * un rs)
           cycles := mulCyclesUnsigned (s.readReg rs) + 1 }
  | .armUmlal cond sets hi lo rs rm =>
    some { cond := cond, sets := sets, hi := hi, lo := lo
           res := BitVec.ofNat 64 (un rm * un rs + accumulator s hi lo)
           cycles := mulCyclesUnsigned (s.readReg rs) + 2 }
  | .armSmull cond sets hi lo rs rm =>
    some { cond := cond, sets := sets, hi := hi, lo := lo, res := BitVec.ofInt 64 (si rm * si rs)
           cycles := mulCyclesSigned (s.readReg rs) + 1 }
  | .armSmlal cond sets hi lo rs rm =>
    some { cond := cond, sets := sets, hi := hi, lo := lo
           res := BitVec.ofInt 64 (si rm * si rs + (accumulator s hi lo : Int))
           cycles := mulCyclesSigned (s.readReg rs) + 2 }
  | _ => none

/-- The low and the high word of a 64-bit result. -/
def lowWord (p : BitVec 64) : Word := BitVec.ofNat 32 p.toNat

/-- The high word of a 64-bit result. -/
def highWord (p : BitVec 64) : Word := BitVec.ofNat 32 (p.toNat / 2 ^ 32)

/-- A block load: its registers and addresses, whether the base is in the list, and whether it is a user-bank form or
a PSR restore (42_arm_loadstore.md R381, R385, R386). -/
structure LoadBlock where
  form    : BlockForm
  inList  : Bool
  restore : Bool
  deriving DecidableEq, Repr

/-- LDM, POP and LDMIA. -/
def blockLoadOf (i : Instr) (s : State) : Option LoadBlock :=
  match i with
  | .armLdm cond p u us w rn list =>
    some { form := { cond := cond, wback := w, user := us && !list.getLsbD 15, rn := rn
                     out := blockAddr p u (s.readReg rn) list }
           inList := list.getLsbD rn.val, restore := us && list.getLsbD 15 }
  | .thumbPop r list =>
    some { form := { cond := .al, wback := true, user := false, rn := 13
                     out := blockAddr false true (s.readReg 13) (thumbList list r 15) }
           inList := false, restore := false }
  | .thumbLdmia rb list =>
    some { form := { cond := .al, wback := true, user := false, rn := lowReg rb
                     out := blockAddr false true (s.readReg (lowReg rb)) (thumbList list false 0) }
           inList := list.getLsbD rb.val, restore := false }
  | _ => none

/-- The mode whose bank a block transfer moves (R386). -/
def BlockForm.bank (f : BlockForm) (s : State) : BitVec 5 := if f.user then modeUsr else s.cpsr.m

/-- The place in the list whose register is a physical register, if any. -/
def BlockForm.placeOf (f : BlockForm) (s : State) (x : Fin 30) : Option Nat :=
  (List.range f.out.regs.length).find? fun k =>
    f.out.regs.getD k 0 != 15 && bankIndex (f.bank s) (f.out.regs.getD k 0) == x

/-- Whether a block load writes its base back (R381, R385). -/
def LoadBlock.writesBase (l : LoadBlock) : Bool := l.form.wback && !l.inList

/-- What a physical register holds after a block load: the loaded word; else the written-back base; else as before. -/
def LoadBlock.regAfter (l : LoadBlock) (s : State) (x : Fin 30) : Word :=
  match l.form.placeOf s x with
  | some k => s.load .word (l.form.out.wordAddr k)
  | none =>
    if l.writesBase && l.form.rn != 15 && bankIndex s.cpsr.m l.form.rn == x then l.form.out.wback else s.regs[x]

/-- The word a block load loads for r15, if r15 is in its list; r15 is the last register of a list. -/
def LoadBlock.pcLoaded (l : LoadBlock) (s : State) : Option Word :=
  if l.form.out.regs.getLastD 0 = 15 then some (s.load .word (l.form.out.wordAddr (l.form.out.regs.length - 1)))
  else none

/-- The cost of a block load's data accesses: one N and the rest S (R880). -/
def BlockForm.dataCost (f : BlockForm) (d : Devices) : Nat :=
  ((List.range f.out.regs.length).map fun k =>
    accessCost d .word (f.out.wordAddr k) (if k = 0 then .nonseq else .seq)).sum

/-- The service number of a software interrupt (43_arm_branch_system.md R404, 46_thumb_branch.md R501). -/
def swiNumber : Instr → Option Nat
  | .armSwi _ comment => some (comment.toNat / 0x10000)
  | .thumbSwi value => some value.toNat
  | _ => none

/-- Whether the instruction's condition, if it has one, passes. -/
def mayRun (i : Instr) (s : State) : Prop := ∀ c, condOf i = some c → condPassed c s.cpsr = true

/-- What the entry of an HLE service leaves: r14_svc and SPSR_svc, as the hardware entry would (47_swi_hle.md R520). -/
def hleSaved (s : State) : State := { s.withReg modeSvc 14 (s.pc + s.instrBytes) with spsrSvc := s.cpsr }

/-- The return of an HLE service from a state: pc after the SWI, `bios_latch` as the BIOS leaves it, and the cost of
Sc and the refill (R520, R556). -/
def hleDone (s t : State) : State :=
  { t with
    biosLatch := 0xE3A02004, pc := s.pc + s.instrBytes
    stepCycles := s.stepCycles + s.sc + s.refillAt (s.pc + s.instrBytes) }

/-- The entry of an exception in mode m at vector v with link l, at a cost (60_exceptions.md R606): the status word
before it in the mode's SPSR, M = m, T = 0 and I = 1, the link in the mode's r14, pc at the vector. F and the
condition flags stay. -/
def enteredException (s : State) (m : BitVec 5) (v l : Word) (cost : Nat) : State :=
  { (s.setSpsr m s.cpsr).withReg m 14 l with
    cpsr := { s.cpsr with m := m, t := false, i := true }, pc := v, stepCycles := s.stepCycles + cost }


/-- The encodings that follow UNDEF_POLICY (30_encoding.md R212 to R214), the coprocessor space among them. -/
def isUndefined : Instr → Bool
  | .armBx _ _ => false
  | .armMul _ _ _ _ _ => false
  | .armMla _ _ _ _ _ _ => false
  | .armUmull _ _ _ _ _ _ => false
  | .armUmlal _ _ _ _ _ _ => false
  | .armSmull _ _ _ _ _ _ => false
  | .armSmlal _ _ _ _ _ _ => false
  | .armSwp _ _ _ _ => false
  | .armSwpb _ _ _ _ => false
  | .armStrh _ _ _ => false
  | .armLdrh _ _ _ => false
  | .armLdrsb _ _ _ => false
  | .armLdrsh _ _ _ => false
  | .armUndefSignedStore _ _ => true
  | .armUndefMulSpace _ _ => true
  | .armMrs _ _ _ => false
  | .armMsrReg _ _ _ _ => false
  | .armMsrImm _ _ _ _ _ => false
  | .armUndefControl _ _ => true
  | .armUndefTestImm _ _ => true
  | .armAndImm _ _ _ _ _ _ => false
  | .armAndShift _ _ _ _ _ _ _ => false
  | .armAndReg _ _ _ _ _ _ _ => false
  | .armEorImm _ _ _ _ _ _ => false
  | .armEorShift _ _ _ _ _ _ _ => false
  | .armEorReg _ _ _ _ _ _ _ => false
  | .armSubImm _ _ _ _ _ _ => false
  | .armSubShift _ _ _ _ _ _ _ => false
  | .armSubReg _ _ _ _ _ _ _ => false
  | .armRsbImm _ _ _ _ _ _ => false
  | .armRsbShift _ _ _ _ _ _ _ => false
  | .armRsbReg _ _ _ _ _ _ _ => false
  | .armAddImm _ _ _ _ _ _ => false
  | .armAddShift _ _ _ _ _ _ _ => false
  | .armAddReg _ _ _ _ _ _ _ => false
  | .armAdcImm _ _ _ _ _ _ => false
  | .armAdcShift _ _ _ _ _ _ _ => false
  | .armAdcReg _ _ _ _ _ _ _ => false
  | .armSbcImm _ _ _ _ _ _ => false
  | .armSbcShift _ _ _ _ _ _ _ => false
  | .armSbcReg _ _ _ _ _ _ _ => false
  | .armRscImm _ _ _ _ _ _ => false
  | .armRscShift _ _ _ _ _ _ _ => false
  | .armRscReg _ _ _ _ _ _ _ => false
  | .armTstImm _ _ _ _ => false
  | .armTstShift _ _ _ _ _ => false
  | .armTstReg _ _ _ _ _ => false
  | .armTeqImm _ _ _ _ => false
  | .armTeqShift _ _ _ _ _ => false
  | .armTeqReg _ _ _ _ _ => false
  | .armCmpImm _ _ _ _ => false
  | .armCmpShift _ _ _ _ _ => false
  | .armCmpReg _ _ _ _ _ => false
  | .armCmnImm _ _ _ _ => false
  | .armCmnShift _ _ _ _ _ => false
  | .armCmnReg _ _ _ _ _ => false
  | .armOrrImm _ _ _ _ _ _ => false
  | .armOrrShift _ _ _ _ _ _ _ => false
  | .armOrrReg _ _ _ _ _ _ _ => false
  | .armMovImm _ _ _ _ _ => false
  | .armMovShift _ _ _ _ _ _ => false
  | .armMovReg _ _ _ _ _ _ => false
  | .armBicImm _ _ _ _ _ _ => false
  | .armBicShift _ _ _ _ _ _ _ => false
  | .armBicReg _ _ _ _ _ _ _ => false
  | .armMvnImm _ _ _ _ _ => false
  | .armMvnShift _ _ _ _ _ _ => false
  | .armMvnReg _ _ _ _ _ _ => false
  | .armUndefMedia _ _ => true
  | .armStrPre _ _ _ _ => false
  | .armStrPost _ _ _ => false
  | .armLdrPre _ _ _ _ => false
  | .armLdrPost _ _ _ => false
  | .armStrbPre _ _ _ _ => false
  | .armStrbPost _ _ _ => false
  | .armLdrbPre _ _ _ _ => false
  | .armLdrbPost _ _ _ => false
  | .armStrt _ _ _ => false
  | .armLdrt _ _ _ => false
  | .armStrbt _ _ _ => false
  | .armLdrbt _ _ _ => false
  | .armStm _ _ _ _ _ _ _ => false
  | .armLdm _ _ _ _ _ _ _ => false
  | .armB _ _ => false
  | .armBl _ _ => false
  | .armStc _ _ _ _ _ _ _ _ _ => true
  | .armLdc _ _ _ _ _ _ _ _ _ => true
  | .armCdp _ _ _ _ _ _ _ => true
  | .armMcr _ _ _ _ _ _ _ => true
  | .armMrc _ _ _ _ _ _ _ => true
  | .armSwi _ _ => false
  | .thumbLslImm _ _ _ => false
  | .thumbLsrImm _ _ _ => false
  | .thumbAsrImm _ _ _ => false
  | .thumbAddReg _ _ _ => false
  | .thumbSubReg _ _ _ => false
  | .thumbAddImm3 _ _ _ => false
  | .thumbSubImm3 _ _ _ => false
  | .thumbMovImm _ _ => false
  | .thumbCmpImm _ _ => false
  | .thumbAddImm8 _ _ => false
  | .thumbSubImm8 _ _ => false
  | .thumbAnd _ _ => false
  | .thumbEor _ _ => false
  | .thumbLslReg _ _ => false
  | .thumbLsrReg _ _ => false
  | .thumbAsrReg _ _ => false
  | .thumbAdc _ _ => false
  | .thumbSbc _ _ => false
  | .thumbRor _ _ => false
  | .thumbTst _ _ => false
  | .thumbNeg _ _ => false
  | .thumbCmp _ _ => false
  | .thumbCmn _ _ => false
  | .thumbOrr _ _ => false
  | .thumbMul _ _ => false
  | .thumbBic _ _ => false
  | .thumbMvn _ _ => false
  | .thumbAddHi _ _ => false
  | .thumbCmpHi _ _ => false
  | .thumbMovHi _ _ => false
  | .thumbBx _ => false
  | .thumbLdrPc _ _ => false
  | .thumbStrReg _ _ _ => false
  | .thumbStrbReg _ _ _ => false
  | .thumbLdrReg _ _ _ => false
  | .thumbLdrbReg _ _ _ => false
  | .thumbStrhReg _ _ _ => false
  | .thumbLdsbReg _ _ _ => false
  | .thumbLdrhReg _ _ _ => false
  | .thumbLdshReg _ _ _ => false
  | .thumbStrImm _ _ _ => false
  | .thumbLdrImm _ _ _ => false
  | .thumbStrbImm _ _ _ => false
  | .thumbLdrbImm _ _ _ => false
  | .thumbStrhImm _ _ _ => false
  | .thumbLdrhImm _ _ _ => false
  | .thumbStrSp _ _ => false
  | .thumbLdrSp _ _ => false
  | .thumbAddPc _ _ => false
  | .thumbAddSp _ _ => false
  | .thumbIncSp _ => false
  | .thumbDecSp _ => false
  | .thumbPush _ _ => false
  | .thumbPop _ _ => false
  | .thumbUndef1011 _ => true
  | .thumbStmia _ _ => false
  | .thumbLdmia _ _ => false
  | .thumbSwi _ => false
  | .thumbUndefCond _ => true
  | .thumbBcond _ _ => false
  | .thumbB _ => false
  | .thumbUndefBlx _ => true
  | .thumbBlPrefix _ => false
  | .thumbBlSuffix _ => false

/-- The physical registers of names r0 to r14 in a mode; r15 is no such register. -/
def bankList (m : BitVec 5) (l : List Reg) : List (Fin 30) := (l.filter fun r => decide (r ≠ 15)).map (bankIndex m)

/-- The physical registers an instruction may write in a state: its destinations, a written-back base, a link register,
the loaded registers, and r14 of a trap's mode. A software interrupt may write any. -/
def writtenRegs (i : Instr) (s : State) : List (Fin 30) :=
  let cur := bankList s.cpsr.m
  match i with
  | .armBx _ _ => []
  | .armMul _ _ rd _ _ => cur [rd]
  | .armMla _ _ rd _ _ _ => cur [rd]
  | .armUmull _ _ rdHi rdLo _ _ => cur [rdHi, rdLo]
  | .armUmlal _ _ rdHi rdLo _ _ => cur [rdHi, rdLo]
  | .armSmull _ _ rdHi rdLo _ _ => cur [rdHi, rdLo]
  | .armSmlal _ _ rdHi rdLo _ _ => cur [rdHi, rdLo]
  | .armSwp _ _ rd _ => cur [rd]
  | .armSwpb _ _ rd _ => cur [rd]
  | .armStrh _ m _ => cur [m.rn]
  | .armLdrh _ m rd => cur [rd, m.rn]
  | .armLdrsb _ m rd => cur [rd, m.rn]
  | .armLdrsh _ m rd => cur [rd, m.rn]
  | .armUndefSignedStore _ _ => [bankIndex modeUnd 14]
  | .armUndefMulSpace _ _ => [bankIndex modeUnd 14]
  | .armMrs _ _ rd => cur [rd]
  | .armMsrReg _ _ _ _ => []
  | .armMsrImm _ _ _ _ _ => []
  | .armUndefControl _ _ => [bankIndex modeUnd 14]
  | .armUndefTestImm _ _ => [bankIndex modeUnd 14]
  | .armAndImm _ _ _ rd _ _ => cur [rd]
  | .armAndShift _ _ _ rd _ _ _ => cur [rd]
  | .armAndReg _ _ _ rd _ _ _ => cur [rd]
  | .armEorImm _ _ _ rd _ _ => cur [rd]
  | .armEorShift _ _ _ rd _ _ _ => cur [rd]
  | .armEorReg _ _ _ rd _ _ _ => cur [rd]
  | .armSubImm _ _ _ rd _ _ => cur [rd]
  | .armSubShift _ _ _ rd _ _ _ => cur [rd]
  | .armSubReg _ _ _ rd _ _ _ => cur [rd]
  | .armRsbImm _ _ _ rd _ _ => cur [rd]
  | .armRsbShift _ _ _ rd _ _ _ => cur [rd]
  | .armRsbReg _ _ _ rd _ _ _ => cur [rd]
  | .armAddImm _ _ _ rd _ _ => cur [rd]
  | .armAddShift _ _ _ rd _ _ _ => cur [rd]
  | .armAddReg _ _ _ rd _ _ _ => cur [rd]
  | .armAdcImm _ _ _ rd _ _ => cur [rd]
  | .armAdcShift _ _ _ rd _ _ _ => cur [rd]
  | .armAdcReg _ _ _ rd _ _ _ => cur [rd]
  | .armSbcImm _ _ _ rd _ _ => cur [rd]
  | .armSbcShift _ _ _ rd _ _ _ => cur [rd]
  | .armSbcReg _ _ _ rd _ _ _ => cur [rd]
  | .armRscImm _ _ _ rd _ _ => cur [rd]
  | .armRscShift _ _ _ rd _ _ _ => cur [rd]
  | .armRscReg _ _ _ rd _ _ _ => cur [rd]
  | .armTstImm _ _ _ _ => []
  | .armTstShift _ _ _ _ _ => []
  | .armTstReg _ _ _ _ _ => []
  | .armTeqImm _ _ _ _ => []
  | .armTeqShift _ _ _ _ _ => []
  | .armTeqReg _ _ _ _ _ => []
  | .armCmpImm _ _ _ _ => []
  | .armCmpShift _ _ _ _ _ => []
  | .armCmpReg _ _ _ _ _ => []
  | .armCmnImm _ _ _ _ => []
  | .armCmnShift _ _ _ _ _ => []
  | .armCmnReg _ _ _ _ _ => []
  | .armOrrImm _ _ _ rd _ _ => cur [rd]
  | .armOrrShift _ _ _ rd _ _ _ => cur [rd]
  | .armOrrReg _ _ _ rd _ _ _ => cur [rd]
  | .armMovImm _ _ rd _ _ => cur [rd]
  | .armMovShift _ _ rd _ _ _ => cur [rd]
  | .armMovReg _ _ rd _ _ _ => cur [rd]
  | .armBicImm _ _ _ rd _ _ => cur [rd]
  | .armBicShift _ _ _ rd _ _ _ => cur [rd]
  | .armBicReg _ _ _ rd _ _ _ => cur [rd]
  | .armMvnImm _ _ rd _ _ => cur [rd]
  | .armMvnShift _ _ rd _ _ _ => cur [rd]
  | .armMvnReg _ _ rd _ _ _ => cur [rd]
  | .armUndefMedia _ _ => [bankIndex modeUnd 14]
  | .armStrPre _ _ m _ => cur [m.rn]
  | .armStrPost _ m _ => cur [m.rn]
  | .armLdrPre _ _ m rd => cur [rd, m.rn]
  | .armLdrPost _ m rd => cur [rd, m.rn]
  | .armStrbPre _ _ m _ => cur [m.rn]
  | .armStrbPost _ m _ => cur [m.rn]
  | .armLdrbPre _ _ m rd => cur [rd, m.rn]
  | .armLdrbPost _ m rd => cur [rd, m.rn]
  | .armStrt _ m _ => cur [m.rn]
  | .armLdrt _ m rd => cur [rd, m.rn]
  | .armStrbt _ m _ => cur [m.rn]
  | .armLdrbt _ m rd => cur [rd, m.rn]
  | .armStm _ _ _ _ _ rn _ => cur [rn]
  | .armLdm _ _ _ us _ rn list =>
    cur [rn] ++ bankList (if us && !list.getLsbD 15 then modeUsr else s.cpsr.m) (listRegs list)
  | .armB _ _ => []
  | .armBl _ _ => cur [14]
  | .armStc _ _ _ _ _ _ _ _ _ => [bankIndex modeUnd 14]
  | .armLdc _ _ _ _ _ _ _ _ _ => [bankIndex modeUnd 14]
  | .armCdp _ _ _ _ _ _ _ => [bankIndex modeUnd 14]
  | .armMcr _ _ _ _ _ _ _ => [bankIndex modeUnd 14]
  | .armMrc _ _ _ _ _ _ _ => [bankIndex modeUnd 14]
  | .armSwi _ _ => List.finRange 30
  | .thumbLslImm _ _ rd => cur [lowReg rd]
  | .thumbLsrImm _ _ rd => cur [lowReg rd]
  | .thumbAsrImm _ _ rd => cur [lowReg rd]
  | .thumbAddReg _ _ rd => cur [lowReg rd]
  | .thumbSubReg _ _ rd => cur [lowReg rd]
  | .thumbAddImm3 _ _ rd => cur [lowReg rd]
  | .thumbSubImm3 _ _ rd => cur [lowReg rd]
  | .thumbMovImm rd _ => cur [lowReg rd]
  | .thumbCmpImm _ _ => []
  | .thumbAddImm8 rd _ => cur [lowReg rd]
  | .thumbSubImm8 rd _ => cur [lowReg rd]
  | .thumbAnd _ rd => cur [lowReg rd]
  | .thumbEor _ rd => cur [lowReg rd]
  | .thumbLslReg _ rd => cur [lowReg rd]
  | .thumbLsrReg _ rd => cur [lowReg rd]
  | .thumbAsrReg _ rd => cur [lowReg rd]
  | .thumbAdc _ rd => cur [lowReg rd]
  | .thumbSbc _ rd => cur [lowReg rd]
  | .thumbRor _ rd => cur [lowReg rd]
  | .thumbTst _ _ => []
  | .thumbNeg _ rd => cur [lowReg rd]
  | .thumbCmp _ _ => []
  | .thumbCmn _ _ => []
  | .thumbOrr _ rd => cur [lowReg rd]
  | .thumbMul _ rd => cur [lowReg rd]
  | .thumbBic _ rd => cur [lowReg rd]
  | .thumbMvn _ rd => cur [lowReg rd]
  | .thumbAddHi _ rd => cur [rd]
  | .thumbCmpHi _ _ => []
  | .thumbMovHi _ rd => cur [rd]
  | .thumbBx _ => []
  | .thumbLdrPc rd _ => cur [lowReg rd]
  | .thumbStrReg _ _ _ => []
  | .thumbStrbReg _ _ _ => []
  | .thumbLdrReg _ _ rd => cur [lowReg rd]
  | .thumbLdrbReg _ _ rd => cur [lowReg rd]
  | .thumbStrhReg _ _ _ => []
  | .thumbLdsbReg _ _ rd => cur [lowReg rd]
  | .thumbLdrhReg _ _ rd => cur [lowReg rd]
  | .thumbLdshReg _ _ rd => cur [lowReg rd]
  | .thumbStrImm _ _ _ => []
  | .thumbLdrImm _ _ rd => cur [lowReg rd]
  | .thumbStrbImm _ _ _ => []
  | .thumbLdrbImm _ _ rd => cur [lowReg rd]
  | .thumbStrhImm _ _ _ => []
  | .thumbLdrhImm _ _ rd => cur [lowReg rd]
  | .thumbStrSp _ _ => []
  | .thumbLdrSp rd _ => cur [lowReg rd]
  | .thumbAddPc rd _ => cur [lowReg rd]
  | .thumbAddSp rd _ => cur [lowReg rd]
  | .thumbIncSp _ => cur [13]
  | .thumbDecSp _ => cur [13]
  | .thumbPush _ _ => cur [13]
  | .thumbPop _ list => cur [13] ++ cur (listRegs (thumbList list false 0))
  | .thumbUndef1011 _ => [bankIndex modeUnd 14]
  | .thumbStmia rb _ => cur [lowReg rb]
  | .thumbLdmia rb list => cur [lowReg rb] ++ cur (listRegs (thumbList list false 0))
  | .thumbSwi _ => List.finRange 30
  | .thumbUndefCond _ => [bankIndex modeUnd 14]
  | .thumbBcond _ _ => []
  | .thumbB _ => []
  | .thumbUndefBlx _ => [bankIndex modeUnd 14]
  | .thumbBlPrefix _ => cur [14]
  | .thumbBlSuffix _ => cur [14]

/-- What an instruction may change in the CPSR. -/
inductive StatusEffect where
  /-- Nothing. -/
  | none
  /-- N, Z, C and V. -/
  | flags
  /-- T. -/
  | thumbBit
  /-- Any field: MSR, a PSR restore, a trap or a service. -/
  | any
  deriving DecidableEq, Repr

/-- A register operation's effect: with S = 1 the flags, or for r15 a PSR restore (40_arm_dataproc.md R301, R302). -/
def dpEffect (sets : Bool) (rd : Reg) : StatusEffect := if !sets then .none else if rd = 15 then .any else .flags

/-- A multiply's effect. -/
def mulEffect (sets : Bool) : StatusEffect := if sets then .flags else .none

/-- What each instruction may change in the CPSR. -/
def statusEffect : Instr → StatusEffect
  | .armBx _ _ => .thumbBit
  | .armMul _ s _ _ _ => mulEffect s
  | .armMla _ s _ _ _ _ => mulEffect s
  | .armUmull _ s _ _ _ _ => mulEffect s
  | .armUmlal _ s _ _ _ _ => mulEffect s
  | .armSmull _ s _ _ _ _ => mulEffect s
  | .armSmlal _ s _ _ _ _ => mulEffect s
  | .armSwp _ _ _ _ => .none
  | .armSwpb _ _ _ _ => .none
  | .armStrh _ _ _ => .none
  | .armLdrh _ _ _ => .none
  | .armLdrsb _ _ _ => .none
  | .armLdrsh _ _ _ => .none
  | .armUndefSignedStore _ _ => .any
  | .armUndefMulSpace _ _ => .any
  | .armMrs _ _ _ => .none
  | .armMsrReg _ _ _ _ => .any
  | .armMsrImm _ _ _ _ _ => .any
  | .armUndefControl _ _ => .any
  | .armUndefTestImm _ _ => .any
  | .armAndImm _ s _ rd _ _ => dpEffect s rd
  | .armAndShift _ s _ rd _ _ _ => dpEffect s rd
  | .armAndReg _ s _ rd _ _ _ => dpEffect s rd
  | .armEorImm _ s _ rd _ _ => dpEffect s rd
  | .armEorShift _ s _ rd _ _ _ => dpEffect s rd
  | .armEorReg _ s _ rd _ _ _ => dpEffect s rd
  | .armSubImm _ s _ rd _ _ => dpEffect s rd
  | .armSubShift _ s _ rd _ _ _ => dpEffect s rd
  | .armSubReg _ s _ rd _ _ _ => dpEffect s rd
  | .armRsbImm _ s _ rd _ _ => dpEffect s rd
  | .armRsbShift _ s _ rd _ _ _ => dpEffect s rd
  | .armRsbReg _ s _ rd _ _ _ => dpEffect s rd
  | .armAddImm _ s _ rd _ _ => dpEffect s rd
  | .armAddShift _ s _ rd _ _ _ => dpEffect s rd
  | .armAddReg _ s _ rd _ _ _ => dpEffect s rd
  | .armAdcImm _ s _ rd _ _ => dpEffect s rd
  | .armAdcShift _ s _ rd _ _ _ => dpEffect s rd
  | .armAdcReg _ s _ rd _ _ _ => dpEffect s rd
  | .armSbcImm _ s _ rd _ _ => dpEffect s rd
  | .armSbcShift _ s _ rd _ _ _ => dpEffect s rd
  | .armSbcReg _ s _ rd _ _ _ => dpEffect s rd
  | .armRscImm _ s _ rd _ _ => dpEffect s rd
  | .armRscShift _ s _ rd _ _ _ => dpEffect s rd
  | .armRscReg _ s _ rd _ _ _ => dpEffect s rd
  | .armTstImm _ _ _ _ => .flags
  | .armTstShift _ _ _ _ _ => .flags
  | .armTstReg _ _ _ _ _ => .flags
  | .armTeqImm _ _ _ _ => .flags
  | .armTeqShift _ _ _ _ _ => .flags
  | .armTeqReg _ _ _ _ _ => .flags
  | .armCmpImm _ _ _ _ => .flags
  | .armCmpShift _ _ _ _ _ => .flags
  | .armCmpReg _ _ _ _ _ => .flags
  | .armCmnImm _ _ _ _ => .flags
  | .armCmnShift _ _ _ _ _ => .flags
  | .armCmnReg _ _ _ _ _ => .flags
  | .armOrrImm _ s _ rd _ _ => dpEffect s rd
  | .armOrrShift _ s _ rd _ _ _ => dpEffect s rd
  | .armOrrReg _ s _ rd _ _ _ => dpEffect s rd
  | .armMovImm _ s rd _ _ => dpEffect s rd
  | .armMovShift _ s rd _ _ _ => dpEffect s rd
  | .armMovReg _ s rd _ _ _ => dpEffect s rd
  | .armBicImm _ s _ rd _ _ => dpEffect s rd
  | .armBicShift _ s _ rd _ _ _ => dpEffect s rd
  | .armBicReg _ s _ rd _ _ _ => dpEffect s rd
  | .armMvnImm _ s rd _ _ => dpEffect s rd
  | .armMvnShift _ s rd _ _ _ => dpEffect s rd
  | .armMvnReg _ s rd _ _ _ => dpEffect s rd
  | .armUndefMedia _ _ => .any
  | .armStrPre _ _ _ _ => .none
  | .armStrPost _ _ _ => .none
  | .armLdrPre _ _ _ _ => .none
  | .armLdrPost _ _ _ => .none
  | .armStrbPre _ _ _ _ => .none
  | .armStrbPost _ _ _ => .none
  | .armLdrbPre _ _ _ _ => .none
  | .armLdrbPost _ _ _ => .none
  | .armStrt _ _ _ => .none
  | .armLdrt _ _ _ => .none
  | .armStrbt _ _ _ => .none
  | .armLdrbt _ _ _ => .none
  | .armStm _ _ _ _ _ _ _ => .none
  | .armLdm _ _ _ us _ _ list => if us && list.getLsbD 15 then .any else .none
  | .armB _ _ => .none
  | .armBl _ _ => .none
  | .armStc _ _ _ _ _ _ _ _ _ => .any
  | .armLdc _ _ _ _ _ _ _ _ _ => .any
  | .armCdp _ _ _ _ _ _ _ => .any
  | .armMcr _ _ _ _ _ _ _ => .any
  | .armMrc _ _ _ _ _ _ _ => .any
  | .armSwi _ _ => .any
  | .thumbLslImm _ _ _ => .flags
  | .thumbLsrImm _ _ _ => .flags
  | .thumbAsrImm _ _ _ => .flags
  | .thumbAddReg _ _ _ => .flags
  | .thumbSubReg _ _ _ => .flags
  | .thumbAddImm3 _ _ _ => .flags
  | .thumbSubImm3 _ _ _ => .flags
  | .thumbMovImm _ _ => .flags
  | .thumbCmpImm _ _ => .flags
  | .thumbAddImm8 _ _ => .flags
  | .thumbSubImm8 _ _ => .flags
  | .thumbAnd _ _ => .flags
  | .thumbEor _ _ => .flags
  | .thumbLslReg _ _ => .flags
  | .thumbLsrReg _ _ => .flags
  | .thumbAsrReg _ _ => .flags
  | .thumbAdc _ _ => .flags
  | .thumbSbc _ _ => .flags
  | .thumbRor _ _ => .flags
  | .thumbTst _ _ => .flags
  | .thumbNeg _ _ => .flags
  | .thumbCmp _ _ => .flags
  | .thumbCmn _ _ => .flags
  | .thumbOrr _ _ => .flags
  | .thumbMul _ _ => .flags
  | .thumbBic _ _ => .flags
  | .thumbMvn _ _ => .flags
  | .thumbAddHi _ _ => .none
  | .thumbCmpHi _ _ => .flags
  | .thumbMovHi _ _ => .none
  | .thumbBx _ => .thumbBit
  | .thumbLdrPc _ _ => .none
  | .thumbStrReg _ _ _ => .none
  | .thumbStrbReg _ _ _ => .none
  | .thumbLdrReg _ _ _ => .none
  | .thumbLdrbReg _ _ _ => .none
  | .thumbStrhReg _ _ _ => .none
  | .thumbLdsbReg _ _ _ => .none
  | .thumbLdrhReg _ _ _ => .none
  | .thumbLdshReg _ _ _ => .none
  | .thumbStrImm _ _ _ => .none
  | .thumbLdrImm _ _ _ => .none
  | .thumbStrbImm _ _ _ => .none
  | .thumbLdrbImm _ _ _ => .none
  | .thumbStrhImm _ _ _ => .none
  | .thumbLdrhImm _ _ _ => .none
  | .thumbStrSp _ _ => .none
  | .thumbLdrSp _ _ => .none
  | .thumbAddPc _ _ => .none
  | .thumbAddSp _ _ => .none
  | .thumbIncSp _ => .none
  | .thumbDecSp _ => .none
  | .thumbPush _ _ => .none
  | .thumbPop _ _ => .none
  | .thumbUndef1011 _ => .any
  | .thumbStmia _ _ => .none
  | .thumbLdmia _ _ => .none
  | .thumbSwi _ => .any
  | .thumbUndefCond _ => .any
  | .thumbBcond _ _ => .none
  | .thumbB _ => .none
  | .thumbUndefBlx _ => .any
  | .thumbBlPrefix _ => .none
  | .thumbBlSuffix _ => .none

/-- Whether a status word changed only where an effect allows. -/
def StatusEffect.allows (e : StatusEffect) (p q : Psr) : Prop :=
  match e with
  | .none => q = p
  | .flags => q.i = p.i ∧ q.f = p.f ∧ q.t = p.t ∧ q.m = p.m
  | .thumbBit => { q with t := p.t } = p
  | .any => True

/-- Whether an instruction may write an SPSR: MSR, a trap or a service. -/
def mayWriteSpsr : Instr → Bool
  | .armMsrReg _ r _ _ => r
  | .armMsrImm _ r _ _ _ => r
  | i => isUndefined i || isSwi i

/-- Whether an instruction may draw free values: the multiplies with S = 1, Thumb MUL, and services. -/
def mayDraw : Instr → Bool
  | .armMul _ s _ _ _ => s
  | .armMla _ s _ _ _ _ => s
  | .armUmull _ s _ _ _ _ => s
  | .armUmlal _ s _ _ _ _ => s
  | .armSmull _ s _ _ _ _ => s
  | .armSmlal _ s _ _ _ _ => s
  | .thumbMul _ _ => true
  | i => isSwi i

/-- Whether an instruction may change the mode: MSR, a PSR restore, a trap or a service (60_exceptions.md R631). -/
def mayChangeMode (i : Instr) : Bool := statusEffect i == StatusEffect.any

/-- The saved status registers are alike. -/
def sameSpsrs (s t : State) : Prop :=
  t.spsrFiq = s.spsrFiq ∧ t.spsrIrq = s.spsrIrq ∧ t.spsrSvc = s.spsrSvc ∧ t.spsrAbt = s.spsrAbt ∧ t.spsrUnd = s.spsrUnd

/-- What no instruction but a software interrupt touches: the latches, the IntrWait mask, the cycle count, the stale
slots and the host's debug state. -/
def sameHidden (s t : State) : Prop :=
  t.prefetchLatch = s.prefetchLatch ∧ t.biosLatch = s.biosLatch ∧ t.intrwaitMask = s.intrwaitMask ∧
    t.cycleCount = s.cycleCount ∧ t.stale = s.stale ∧ t.dbg = s.dbg

/-- The programmer's view of the CPU is alike: registers, pc and status registers. -/
def sameCpu (s t : State) : Prop := t.regs = s.regs ∧ t.pc = s.pc ∧ t.cpsr = s.cpsr ∧ sameSpsrs s t

/-- The mode is one of the seven, and pc is aligned for the state of T (10_state.md R31, R35). -/
def State.ModePcOk (s : State) : Prop :=
  legalMode s.cpsr.m = true ∧ s.pc.toNat % s.instrBytes.toNat = 0

/-- Memory is in canonical form. -/
def State.MemoryOk (s : State) : Prop := s.dev.mem.wf = true

/-- Reserved bits read as the spec says and counters stay in range: the beam (64_ppu.md R741), the interrupt registers
(60_exceptions.md R620 to R622), the keypad (R660, R661), the timers' controls (R651), the DMA registers (62_dma.md R701,
R703), the FIFO occupancies (R718), DISPCNT bit 3, POSTFLG, and the frames' 160 rows. -/
def Devices.InBounds (d : Devices) : Prop :=
  (d.ppu.line < 228 ∧ d.ppu.dot < 1232 ∧ d.ppu.back.length = 160 ∧ d.ppu.front.length = 160) ∧
  (d.ie &&& 0xC000 = 0 ∧ d.iflag &&& 0xC000 = 0 ∧ d.ime &&& 0xFFFE = 0) ∧
  (d.keyinput &&& 0xFC00 = 0 ∧ d.keycnt &&& 0x3C00 = 0 ∧ d.postflg &&& 0xFE = 0) ∧
  (d.fifoA ≤ 32 ∧ d.fifoB ≤ 32 ∧ d.ppu.dispcnt &&& 0x0008 = 0) ∧
  (∀ n : Fin 4, d.timers[n].ctl &&& 0xFF38 = 0) ∧
  (∀ n : Fin 4, d.dma[n].sad &&& ~~~dmaSadMask n = 0 ∧ d.dma[n].dad &&& ~~~dmaDadMask n = 0 ∧
    d.dma[n].src &&& ~~~dmaSadMask n = 0 ∧ d.dma[n].dst &&& ~~~dmaDadMask n = 0 ∧
    d.dma[n].cntH &&& ~~~dmaCntHMask n = 0)

/-- The devices stay in bounds. -/
def State.DevicesOk (s : State) : Prop := s.dev.InBounds

end Sys2Proof.Machine
end

