-- ==== Sys2Proof/Certificates/Slice0/Obligations.lean ====
section
/-! DEFINITION. The statements for the provers. Each docstring names the rule of spec/ it says, and what it leaves to
another statement. "s.goes pc n" is s at another pc, n cycles later, and nothing else changed. -/

open Sys2Proof Sys2Proof.Machine

/-! ## Encoding -/

/-- Words the spec gives as examples decode to the instructions it gives them for (the Example lines of R303, R341 to
R343, R361, R371, R373, R382, R385, R390, R319, R320, R400, R401, R403, R404, R406, and of the Thumb rules). -/
def Obligations.SpecExamplesDecode : Prop :=
  (decodeWord false 0xE20100FF = .armAndImm .al false 1 0 0 0xFF ∧
    decodeWord false 0xE0000291 = .armMul .al false 0 2 1 ∧
    decodeWord false 0xE0203291 = .armMla .al false 0 3 2 1 ∧
    decodeWord false 0xE0810392 = .armUmull .al false 1 0 3 2 ∧
    decodeWord false 0xE7110102 = .armLdrPre .al false { up := false, rn := 1, off := .reg 2 .lsl 2 } 0 ∧
    decodeWord false 0xE4910004 = .armLdrPost .al { up := true, rn := 1, off := .imm 4 } 0 ∧
    decodeWord false 0xE1C100B2 =
      .armStrh .al { pre := true, up := true, wback := false, rn := 1, off := .imm 2 } 0 ∧
    decodeWord false 0xE1D100D0 =
      .armLdrsb .al { pre := true, up := true, wback := false, rn := 1, off := .imm 0 } 0) ∧
  (decodeWord false 0xE92D500F = .armStm .al true false false true 13 0x500F ∧
    decodeWord false 0xE8FD8001 = .armLdm .al false true true true 13 0x8001 ∧
    decodeWord false 0xE1020091 = .armSwp .al 2 0 1 ∧
    decodeWord false 0xE14F0000 = .armMrs .al true 0 ∧
    decodeWord false 0xE121F000 = .armMsrReg .al false 1 0 ∧
    decodeWord false 0xE328F20F = .armMsrImm .al false 8 2 0x0F ∧
    decodeWord false 0xEAFFFFFE = .armB .al 0xFFFFFE ∧
    decodeWord false 0xEBFFFFBE = .armBl .al 0xFFFFBE ∧
    decodeWord false 0xE12FFF1E = .armBx .al 14 ∧
    decodeWord false 0xEF060000 = .armSwi .al 0x060000 ∧
    decodeWord false 0xEE000100 = .armCdp .al 0 0 0 1 0 0) ∧
  (decodeWord true 0x0108 = .thumbLslImm 4 1 0 ∧
    decodeWord true 0x1888 = .thumbAddReg 2 1 0 ∧
    decodeWord true 0x20FF = .thumbMovImm 0 255 ∧
    decodeWord true 0x4148 = .thumbAdc 1 0 ∧
    decodeWord true 0x4580 = .thumbCmpHi 0 8 ∧
    decodeWord true 0x4770 = .thumbBx 14 ∧
    decodeWord true 0x4801 = .thumbLdrPc 0 1 ∧
    decodeWord true 0x6048 = .thumbStrImm 1 1 0 ∧
    decodeWord true 0xD002 = .thumbBcond .eq 2 ∧
    decodeWord true 0xDF06 = .thumbSwi 6 ∧
    decodeWord true 0xE7FE = .thumbB 0x7FE ∧
    decodeWord true 0xF7FD = .thumbBlPrefix 0x7FD ∧
    decodeWord true 0xFFFE = .thumbBlSuffix 0x7FE ∧
    decodeWord true 0xDE00 = .thumbUndefCond 0)

/-- Every well-formed ARM instruction is what its word decodes to: no operand bit is dropped (R201, R202). -/
def Obligations.ArmDecodeEncode : Prop :=
  ∀ i : Instr, i.WellFormed → i.isThumb = false → decodeWord false (encode i) = i

/-- Every well-formed Thumb instruction is what its halfword decodes to (R209, R210). -/
def Obligations.ThumbDecodeEncode : Prop :=
  ∀ i : Instr, i.WellFormed → i.isThumb = true → decodeWord true (encode i) = i

/-- Every word and every halfword decodes to a well-formed instruction of its state (R202, R210: decode is total). -/
def Obligations.DecodeIsTotalAndWellFormed : Prop :=
  (∀ w < 2 ^ 32, (decodeWord false w).WellFormed ∧ (decodeWord false w).isThumb = false) ∧
  (∀ w < 2 ^ 16, (decodeWord true w).WellFormed ∧ (decodeWord true w).isThumb = true)

/-! ## The step -/

/-- A Running step that no breakpoint stops runs the instruction that the word at pc decodes to, in the state after
the prefetch, and then what R856 adds; its cycles are those its meaning charged, where CYCLE_COST is the table. Where
stores made the slot at pc stale, it runs the instruction of an old word or of the new one (R870). What precedes the
instruction changes neither the CPU nor the counts, and of the devices only the model's own note of the halfwords of
I/O and of the backup window that a step's stores wrote, which it empties (log entry 9). Which slots are stale, and that a branch empties them,
is the model's reading (log entry 9); the form of a replaced CYCLE_COST is the model's choice (log entry 35). -/
def Obligations.StepRunsDecodedInstruction : Prop :=
  ∀ s : State, s.dev.run = .running → breakpointHit s = false →
    (∀ i, staleWords s.stale s.pc = [] →
      decodeWord s.cpsr.t ((beforeInstr s).fetchAt s.pc).toNat = i →
      step s = andThen (exec i (beforeInstr s)) fun t => afterInstr (beforeInstr s) t.priced) ∧
    (∃ w k, (w ∈ staleWords s.stale s.pc ∨ w = (beforeInstr s).fetchAt s.pc) ∧
      step s = andThen (exec (decodeWord s.cpsr.t w.toNat) { beforeInstr s with freeCount := s.freeCount + k })
        fun t => afterInstr (beforeInstr s) t.priced) ∧
    (∀ t : State, t.dev.params.cycleCost = .table → t.priced = t) ∧
    (sameCpu s (beforeInstr s) ∧ (beforeInstr s).dev = { s.dev with portStored := [] } ∧ (beforeInstr s).stepCycles = 0 ∧
      (beforeInstr s).cycleCount = s.cycleCount ∧ (beforeInstr s).freeCount = s.freeCount)

/-- What the step adds after an instruction leaves registers, pc and status words as the instruction left them, or
takes one IRQ, which I masks; the cycles only grow, and all of them are counted (R856, R608, R624). The cycles of the
entry are those of CYCLE_COST (log entry 35). -/
def Obligations.AfterInstructionOnlyAnIrqChangesTheCpu : Prop :=
  ∀ b m t : State, afterInstr b m = .next t →
    t.cycleCount = m.cycleCount + BitVec.ofNat 64 t.stepCycles ∧ m.stepCycles ≤ t.stepCycles ∧
      (sameCpu m t ∨
        (m.cpsr.i = false ∧ sameCpu (enteredException m modeIrq 0x18 (m.pc + 4) 0) t ∧
          m.stepCycles + irqCycles m.dev.params ≤ t.stepCycles))

/-! ## Conditions -/

/-- R204: when each condition passes. -/
def Obligations.ConditionTable : Prop :=
  ∀ p : Psr,
    ((condPassed .eq p = true ↔ p.z = true) ∧ (condPassed .ne p = true ↔ p.z = false) ∧
      (condPassed .cs p = true ↔ p.c = true) ∧ (condPassed .cc p = true ↔ p.c = false) ∧
      (condPassed .mi p = true ↔ p.n = true) ∧ (condPassed .pl p = true ↔ p.n = false) ∧
      (condPassed .vs p = true ↔ p.v = true) ∧ (condPassed .vc p = true ↔ p.v = false)) ∧
    ((condPassed .hi p = true ↔ p.c = true ∧ p.z = false) ∧ (condPassed .ls p = true ↔ p.c = false ∨ p.z = true) ∧
      (condPassed .ge p = true ↔ p.n = p.v) ∧ (condPassed .lt p = true ↔ p.n ≠ p.v) ∧
      (condPassed .gt p = true ↔ p.z = false ∧ p.n = p.v) ∧ (condPassed .le p = true ↔ p.z = true ∨ p.n ≠ p.v) ∧
      condPassed .al p = true ∧ condPassed .nv p = false)

/-- R205: an ARM instruction whose condition fails, of any kind, undefined and coprocessor encodings among them and
whatever UNDEF_POLICY is, only advances pc by 4, at the cost of Sc; every ARM instruction has a condition, and NV never
passes. -/
def Obligations.FailedConditionSkips : Prop :=
  (∀ (i : Instr) (c : Cond) (s : State), i.isThumb = false → condOf i = some c → s.cpsr.t = false →
    condPassed c s.cpsr = false → exec i s = .next (s.goes (s.pc + 4) s.sc)) ∧
  (∀ i : Instr, i.isThumb = false → (condOf i).isSome = true) ∧ (∀ p : Psr, condPassed .nv p = false)

/-! ## Registers and status words -/

/-- R32 and the first two cases of R34: which names share a physical register, what an operand read of each name gives,
and that a write of one name is read back, and leaves every other name and bank alone. -/
def Obligations.RegisterBanks : Prop :=
  (∀ (m n : BitVec 5) (i j : Reg), legalMode m = true → legalMode n = true → i ≠ 15 → j ≠ 15 →
    (bankIndex m i = bankIndex n j ↔
      i = j ∧ (i < 8 ∨ m = n ∨ (i < 13 ∧ m ≠ modeFiq ∧ n ≠ modeFiq) ∨
        ((m = modeUsr ∨ m = modeSys) ∧ (n = modeUsr ∨ n = modeSys))))) ∧
  (∀ s : State, s.readReg 15 = s.pc + (if s.cpsr.t then 4 else 8)) ∧
  (∀ (s : State) (i : Reg), i ≠ 15 → s.readReg i = s.regs[bankIndex s.cpsr.m i]) ∧
  (∀ (s : State) (m n : BitVec 5) (i j : Reg) (v : Word), i ≠ 15 →
    (s.setBankedReg m i v).bankedReg n j = if bankIndex n j = bankIndex m i then v else s.bankedReg n j)

/-! ## Data processing -/

/-- R206, bit by bit: the immediate and the immediate-shift operand and their carry-out. A shift amount of 0 is 32 for
LSR and ASR and rotates through C for ROR. -/
def Obligations.ShifterOperand : Prop :=
  (∀ (rot : BitVec 4) (imm : BitVec 8) (c : Bool),
    (∀ k < 32, (immOperand rot imm c).value.getLsbD k = imm.getLsbD ((k + 2 * rot.toNat) % 32)) ∧
    (immOperand rot imm c).carry = if rot = 0 then c else (immOperand rot imm c).value.getLsbD 31) ∧
  (∀ (m : Word) (amt : BitVec 5) (c : Bool),
    let n := amt.toNat
    let a := if n = 0 then 32 else n
    ((∀ k < 32, (immShift .lsl m amt c).value.getLsbD k = (decide (n ≤ k) && m.getLsbD (k - n))) ∧
      (immShift .lsl m amt c).carry = if n = 0 then c else m.getLsbD (32 - n)) ∧
    ((∀ k < 32, (immShift .lsr m amt c).value.getLsbD k = m.getLsbD (k + a)) ∧
      (immShift .lsr m amt c).carry = m.getLsbD (a - 1)) ∧
    ((∀ k < 32, (immShift .asr m amt c).value.getLsbD k = m.getLsbD (min (k + a) 31)) ∧
      (immShift .asr m amt c).carry = m.getLsbD (a - 1)) ∧
    ((∀ k < 32, (immShift .ror m amt c).value.getLsbD k =
        if n ≠ 0 then m.getLsbD ((k + n) % 32) else if k = 31 then c else m.getLsbD (k + 1)) ∧
      (immShift .ror m amt c).carry = m.getLsbD (if n = 0 then 0 else n - 1)))

/-- R207, bit by bit: a shift by the bottom byte of a register, for amounts of 0, 1 to 31, 32 and above. -/
def Obligations.RegisterShift : Prop :=
  ∀ (m amount : Word) (c : Bool),
    let n := amount.toNat % 256
    (n = 0 → ∀ sh, regShift sh m amount c = { value := m, carry := c }) ∧
    (n ≠ 0 →
      ((∀ k < 32, (regShift .lsl m amount c).value.getLsbD k = (decide (n ≤ k) && m.getLsbD (k - n))) ∧
        (regShift .lsl m amount c).carry = (decide (n ≤ 32) && m.getLsbD (32 - n))) ∧
      ((∀ k < 32, (regShift .lsr m amount c).value.getLsbD k = m.getLsbD (k + n)) ∧
        (regShift .lsr m amount c).carry = m.getLsbD (n - 1)) ∧
      ((∀ k < 32, (regShift .asr m amount c).value.getLsbD k = m.getLsbD (min (k + n) 31)) ∧
        (regShift .asr m amount c).carry = m.getLsbD (min (n - 1) 31)) ∧
      ((∀ k < 32, (regShift .ror m amount c).value.getLsbD k = m.getLsbD ((k + n) % 32)) ∧
        (regShift .ror m amount c).carry = m.getLsbD ((n - 1) % 32)))

/-- The results of R303 to R318 as integers modulo 2^32 and bit by bit; the results of the tests are those whose flags
they set. -/
def Obligations.AluResults : Prop :=
  ∀ (a b : Word) (c : Bool),
    let cin : Int := if c then 1 else 0
    let x : Int := a.toNat
    let y : Int := b.toNat
    (aluResult .add a b c = BitVec.ofInt 32 (x + y) ∧ aluResult .cmn a b c = BitVec.ofInt 32 (x + y) ∧
      aluResult .adc a b c = BitVec.ofInt 32 (x + y + cin) ∧
      aluResult .sub a b c = BitVec.ofInt 32 (x - y) ∧ aluResult .cmp a b c = BitVec.ofInt 32 (x - y) ∧
      aluResult .sbc a b c = BitVec.ofInt 32 (x - y - (1 - cin)) ∧
      aluResult .rsb a b c = BitVec.ofInt 32 (y - x) ∧ aluResult .rsc a b c = BitVec.ofInt 32 (y - x - (1 - cin))) ∧
    (∀ k < 32,
      (aluResult .and a b c).getLsbD k = (a.getLsbD k && b.getLsbD k) ∧
      (aluResult .tst a b c).getLsbD k = (a.getLsbD k && b.getLsbD k) ∧
      (aluResult .eor a b c).getLsbD k = (a.getLsbD k ^^ b.getLsbD k) ∧
      (aluResult .teq a b c).getLsbD k = (a.getLsbD k ^^ b.getLsbD k) ∧
      (aluResult .orr a b c).getLsbD k = (a.getLsbD k || b.getLsbD k) ∧
      (aluResult .bic a b c).getLsbD k = (a.getLsbD k && !b.getLsbD k) ∧
      (aluResult .mov a b c).getLsbD k = b.getLsbD k ∧
      (aluResult .mvn a b c).getLsbD k = !b.getLsbD k)

/-- R302, with carry and overflow as facts about exact integers: C of an addition is a carry out of 32 unsigned bits, C of
a subtraction is no borrow, and V is a signed result out of range. Logical operations take C from the shifter and keep V.
The interrupt masks, T and the mode stay. -/
def Obligations.AluFlagRules : Prop :=
  ∀ (op : AluOp) (a b : Word) (sc : Bool) (p : Psr),
    let q := aluFlags op a b sc p
    let r := aluResult op a b p.c
    let out := fun (v : Int) => v < -(2 ^ 31) ∨ 2 ^ 31 ≤ v
    let cin : Int := if p.c then 1 else 0
    (q.n = r.getLsbD 31 ∧ (q.z = true ↔ r = 0) ∧ q.i = p.i ∧ q.f = p.f ∧ q.t = p.t ∧ q.m = p.m) ∧
    (op.isLogical = true → q.c = sc ∧ q.v = p.v) ∧
    (op = .add ∨ op = .cmn →
      (q.c = true ↔ 2 ^ 32 ≤ a.toNat + b.toNat) ∧ (q.v = true ↔ out (a.toInt + b.toInt))) ∧
    (op = .adc →
      (q.c = true ↔ 2 ^ 32 ≤ (a.toNat : Int) + b.toNat + cin) ∧ (q.v = true ↔ out (a.toInt + b.toInt + cin))) ∧
    (op = .sub ∨ op = .cmp → (q.c = true ↔ b.toNat ≤ a.toNat) ∧ (q.v = true ↔ out (a.toInt - b.toInt))) ∧
    (op = .sbc →
      (q.c = true ↔ (b.toNat : Int) + (1 - cin) ≤ a.toNat) ∧ (q.v = true ↔ out (a.toInt - b.toInt - (1 - cin)))) ∧
    (op = .rsb → (q.c = true ↔ a.toNat ≤ b.toNat) ∧ (q.v = true ↔ out (b.toInt - a.toInt))) ∧
    (op = .rsc →
      (q.c = true ↔ (a.toNat : Int) + (1 - cin) ≤ b.toNat) ∧ (q.v = true ↔ out (b.toInt - a.toInt - (1 - cin))))

/-- The twelve operations that write a register, in all three forms, to r0 to r14: the register, the flags if S, pc + 4,
Sc and an I in the register-shift form, and nothing else (R300, R301, R880). -/
def Obligations.DataProcessingWritesRegister : Prop :=
  ∀ (op : AluOp) (cond : Cond) (sets : Bool) (rn rd : Reg) (f : DpForm) (s : State),
    op.isTest = false → s.cpsr.t = false → condPassed cond s.cpsr = true → rd ≠ 15 →
    let a := dpFirst s rn f
    let b := dpSecond s f
    exec (dpInstr op cond sets rn rd f) s =
      .next { (s.withReg s.cpsr.m rd (aluResult op a b.value s.cpsr.c)).goes (s.pc + 4) (s.sc + dpExtra f) with
        cpsr := if sets then aluFlags op a b.value b.carry s.cpsr else s.cpsr }

/-- The same operations to r15: a branch to the aligned result. With S = 1 in a mode with an SPSR, the SPSR becomes the
CPSR first, and pc is aligned by the restored T; a saved mode that is no mode is refused; User and System mode keep their
CPSR (R301, R41, R42, R43, R35, R882). -/
def Obligations.DataProcessingWritesPc : Prop :=
  ∀ (op : AluOp) (cond : Cond) (sets : Bool) (rn : Reg) (f : DpForm) (s : State),
    op.isTest = false → s.cpsr.t = false → condPassed cond s.cpsr = true →
    let res := aluResult op (dpFirst s rn f) (dpSecond s f).value s.cpsr.c
    let here := res &&& 0xFFFFFFFC
    let branch := s.goes here (s.sc + dpExtra f + s.refillAt here)
    (sets = false → exec (dpInstr op cond sets rn 15 f) s = .next branch) ∧
    (sets = true → s.spsrOf s.cpsr.m = none → exec (dpInstr op cond sets rn 15 f) s = .next branch) ∧
    (sets = true → ∀ p, s.spsrOf s.cpsr.m = some p → legalMode p.m = true →
      let u := { s with cpsr := p }
      let there := if p.t then res &&& 0xFFFFFFFE else res &&& 0xFFFFFFFC
      exec (dpInstr op cond sets rn 15 f) s = .next (u.goes there (s.sc + dpExtra f + u.refillAt there))) ∧
    (sets = true → ∀ p, s.spsrOf s.cpsr.m = some p → legalMode p.m = false →
      exec (dpInstr op cond sets rn 15 f) s = .refused .invalidMode)

/-- TST, TEQ, CMP and CMN in all three forms: the flags, pc + 4, and no register (R301, R302, R311 to R314). -/
def Obligations.TestsWriteOnlyFlags : Prop :=
  ∀ (op : AluOp) (cond : Cond) (sets : Bool) (rn rd : Reg) (f : DpForm) (s : State),
    op.isTest = true → s.cpsr.t = false → condPassed cond s.cpsr = true →
    let a := dpFirst s rn f
    let b := dpSecond s f
    exec (dpInstr op cond sets rn rd f) s =
      .next { s.goes (s.pc + 4) (s.sc + dpExtra f) with cpsr := aluFlags op a b.value b.carry s.cpsr }

/-- MRS (R319, R37, R43): the CPSR, or with R = 1 the SPSR of a mode that has one; r15 is a branch. The fields of the word
it reads stand at the bits of R37's table, and bits 27:8 read as 0 and are dropped by a write. That r15, which R319
calls UNPREDICTABLE, costs the refill of R882 besides R880's Sc is the model's reading (log entry 31). -/
def Obligations.MrsReadsStatusWord : Prop :=
  (∀ (cond : Cond) (r : Bool) (rd : Reg) (s : State), s.cpsr.t = false → condPassed cond s.cpsr = true →
    let p := if r then (s.spsrOf s.cpsr.m).getD s.cpsr else s.cpsr
    let w := psrWord p
    (rd ≠ 15 → exec (.armMrs cond r rd) s = .next ((s.withReg s.cpsr.m rd w).goes (s.pc + 4) s.sc)) ∧
    (rd = 15 → exec (.armMrs cond r rd) s =
      .next (s.goes (w &&& 0xFFFFFFFC) (s.sc + s.refillAt (w &&& 0xFFFFFFFC))))) ∧
  (∀ p : Psr, psrOfWord (psrWord p) = p) ∧
  (∀ w : Word, psrWord (psrOfWord w) = w &&& 0xF00000FF) ∧
  (∀ p : Psr, (psrWord p).getLsbD 31 = p.n ∧ (psrWord p).getLsbD 30 = p.z ∧ (psrWord p).getLsbD 29 = p.c ∧
    (psrWord p).getLsbD 28 = p.v ∧ (psrWord p).getLsbD 7 = p.i ∧ (psrWord p).getLsbD 6 = p.f ∧
    (psrWord p).getLsbD 5 = p.t ∧ (psrWord p).extractLsb' 0 5 = p.m ∧ (psrWord p).extractLsb' 8 20 = 0)

/-- MSR of either form (R320): the bits of the mask and no others, I, F and M only in a privileged mode, never T of the
CPSR; no SPSR means no effect; a value that is no mode is refused (R42, R43). -/
def Obligations.MsrWritesMaskedBits : Prop :=
  ∀ (i : Instr) (s : State) (f : MsrForm), msrOf i s = some f → s.cpsr.t = false → condPassed f.cond s.cpsr = true →
    (f.spsr = false →
      let new := maskedWord (psrWord s.cpsr) f.value (msrCpsrMask s.cpsr.m f.mask)
      exec i s = if legalMode (psrOfWord new).m then .next { s.goes (s.pc + 4) s.sc with cpsr := psrOfWord new }
        else .refused .invalidMode) ∧
    (f.spsr = true → s.spsrOf s.cpsr.m = none → exec i s = .next (s.goes (s.pc + 4) s.sc)) ∧
    (f.spsr = true → ∀ p, s.spsrOf s.cpsr.m = some p →
      let new := psrOfWord (maskedWord (psrWord p) f.value (msrSpsrMask f.mask))
      exec i s = if f.mask.getLsbD 0 && !legalMode new.m then .refused .invalidMode
        else .next ((s.setSpsr s.cpsr.m new).goes (s.pc + 4) s.sc))

/-! ## Multiplies -/

/-- MUL, MLA and Thumb MUL (R341, R342, R348, R455): the product modulo 2^32; with S, N and Z from it, C any value (as
it was under the executable default of MUL_CARRY), V as it was; r15 is a branch; cycles by the multiplier (R880). The
meaningless C is a free value (log entry 1). That r15 costs the refill is the model's reading (R882, log entry 31). -/
def Obligations.MultiplyResult : Prop :=
  ∀ (i : Instr) (s : State) (f : MulForm), mulOf i s = some f → condPassed f.cond s.cpsr = true →
    ∃ (c : Bool) (k : Nat),
      (f.sets = false → k = 0) ∧ (s.dev.params.mulCarry = .executableDefault → c = s.cpsr.c ∧ k = 0) ∧
      let p := if f.sets then { s.cpsr with n := f.res.getLsbD 31, z := decide (f.res = 0), c := c } else s.cpsr
      let target := if s.cpsr.t then f.res &&& 0xFFFFFFFE else f.res &&& 0xFFFFFFFC
      exec i s = .next
        (if f.rd = 15 then
          { s.goes target (s.sc + f.cycles + s.refillAt target) with cpsr := p, freeCount := s.freeCount + k }
        else
          { (s.withReg s.cpsr.m f.rd f.res).goes (s.pc + s.instrBytes) (s.sc + f.cycles) with
            cpsr := p, freeCount := s.freeCount + k })

/-- The long multiplies (R343 to R348): the exact product, signed or unsigned, plus the accumulator of the
accumulating forms, modulo 2^64; RdLo is written first and RdHi second, so RdHi stands where both are one; r15 among
them is a branch; with S, N and Z from 64 bits, C and V any values. The meaningless C and V are free values (log entry
1). That r15 costs the refill, and that two writes of r15 cost one, is the model's reading (R882, log entries 31 and
23). -/
def Obligations.LongMultiplyResult : Prop :=
  ∀ (i : Instr) (s : State) (f : LongMulForm), longMulOf i s = some f → s.cpsr.t = false →
    condPassed f.cond s.cpsr = true →
    ∃ (c v : Bool) (k : Nat),
      (f.sets = false → k = 0) ∧
      (s.dev.params.mulCarry = .executableDefault → c = s.cpsr.c ∧ v = s.cpsr.v ∧ k = 0) ∧
      let p := if f.sets then { s.cpsr with n := f.res.getLsbD 63, z := decide (f.res = 0), c := c, v := v } else s.cpsr
      let u := (s.withReg s.cpsr.m f.lo (lowWord f.res)).withReg s.cpsr.m f.hi (highWord f.res)
      let target := (if f.hi = 15 then highWord f.res else lowWord f.res) &&& 0xFFFFFFFC
      exec i s = .next
        (if f.hi = 15 ∨ f.lo = 15 then
          { u.goes target (s.sc + f.cycles + s.refillAt target) with cpsr := p, freeCount := s.freeCount + k }
        else { u.goes (s.pc + 4) (s.sc + f.cycles) with cpsr := p, freeCount := s.freeCount + k })

/-- R881: the multiplier's cycle count, by the leading groups of equal bits (signed forms) or of zeros (unsigned). -/
def Obligations.MultiplierCycles : Prop :=
  ∀ rs : Word,
    let zeros := fun n => ∀ k, n ≤ k → k < 32 → rs.getLsbD k = false
    let ones := fun n => ∀ k, n ≤ k → k < 32 → rs.getLsbD k = true
    let group := fun n => zeros n ∨ ones n
    (group 8 → mulCyclesSigned rs = 1) ∧ (¬ group 8 → group 16 → mulCyclesSigned rs = 2) ∧
      (¬ group 16 → group 24 → mulCyclesSigned rs = 3) ∧ (¬ group 24 → mulCyclesSigned rs = 4) ∧
      (zeros 8 → mulCyclesUnsigned rs = 1) ∧ (¬ zeros 8 → zeros 16 → mulCyclesUnsigned rs = 2) ∧
      (¬ zeros 16 → zeros 24 → mulCyclesUnsigned rs = 3) ∧ (¬ zeros 24 → mulCyclesUnsigned rs = 4)

/-! ## Loads and stores -/

/-- R360 and R370: the address of a single transfer and what is written back to the base. -/
def Obligations.TransferAddresses : Prop :=
  (∀ (s : State) (w : Bool) (m : Mode2),
    let off := match m.off with
      | .imm o => BitVec.ofNat 32 o.toNat
      | .reg rm sh amt => (immShift sh (s.readReg rm) amt s.cpsr.c).value
    let moved := if m.up then s.readReg m.rn + off else s.readReg m.rn - off
    addr2Pre s w m = { addr := moved, base := m.rn, wback := if w then some moved else none } ∧
    addr2Post s m = { addr := s.readReg m.rn, base := m.rn, wback := some moved }) ∧
  (∀ (s : State) (m : Mode3),
    let off := match m.off with
      | .imm o => BitVec.ofNat 32 o.toNat
      | .reg rm => s.readReg rm
    let moved := if m.up then s.readReg m.rn + off else s.readReg m.rn - off
    addr3 s m =
      { addr := if m.pre then moved else s.readReg m.rn, base := m.rn
        wback := if m.pre && !m.wback then none else some moved })

/-- The values the loads load (R361, R363, R372, R373, R374): a misaligned word or halfword is rotated, bytes and aligned
halfwords are extended, an odd LDRSH loads a signed byte. -/
def Obligations.LoadedValues : Prop :=
  ∀ (s : State) (a : Word),
    (∀ k < 32, (loadWordValue s a).getLsbD k = (s.load .word a).getLsbD ((k + 8 * (a.toNat % 4)) % 32)) ∧
    (∀ k < 32, (loadHalfValue s a).getLsbD k = (s.load .half a).getLsbD ((k + 8 * (a.toNat % 2)) % 32)) ∧
    ((s.load .byte a).toNat < 2 ^ 8 ∧ (s.load .half a).toNat < 2 ^ 16 ∧ loadByteValue s a = s.load .byte a) ∧
    (let b : Int := (s.load .byte a).toNat
     (loadSignedByteValue s a).toInt = if b < 2 ^ 7 then b else b - 2 ^ 8) ∧
    (a.toNat % 2 = 0 →
      let h : Int := (s.load .half a).toNat
      (loadSignedHalfValue s a).toInt = if h < 2 ^ 15 then h else h - 2 ^ 16) ∧
    (a.toNat % 2 = 1 → loadSignedHalfValue s a = loadSignedByteValue s a)

/-- The nine ARM loads: the base is written back, then the register, so the loaded value stands where both are one;
r15 as destination or as written-back base is a branch in the same state of T; Sc, Nd and one I (R361 to R374, R880).
That a written-back r15 costs the refill, and that r15 written twice costs one, is the model's reading (R882, log
entries 31 and 23). -/
def Obligations.ArmLoads : Prop :=
  ∀ (i : Instr) (s : State) (f : LoadForm), armLoadOf i s = some f → s.cpsr.t = false →
    condPassed f.cond s.cpsr = true →
    let u := f.addr.applyBase s
    let v := u.withReg s.cpsr.m f.rd f.value
    let cost := s.sc + s.nd f.width f.addr.addr + 1
    exec i s = .next
      (if f.rd = 15 then u.goes (f.value &&& 0xFFFFFFFC) (cost + s.refillAt (f.value &&& 0xFFFFFFFC))
      else match f.addr.nextPc with
        | some x => v.goes (x &&& 0xFFFFFFFC) (cost + s.refillAt (x &&& 0xFFFFFFFC))
        | none => v.goes (s.pc + 4) cost)

/-- The seven ARM stores: one bus write of the register as it was before the write-back, r15 as pc + 12; the base is
written back; Nc and Nd (R362 to R371, R880). That a written-back r15 costs the refill is the model's reading (R369,
R882, log entries 12 and 31), and so is that the store is priced before it takes effect (log entry 23). -/
def Obligations.ArmStores : Prop :=
  ∀ (i : Instr) (s : State) (f : StoreForm), armStoreOf i s = some f → s.cpsr.t = false →
    condPassed f.cond s.cpsr = true →
    let v := if f.rd = 15 then s.pc + 12 else s.readReg f.rd
    let u := f.addr.applyBase { s with dev := busWrite s.dev f.width f.addr.addr v }
    let cost := s.nc + s.nd f.width f.addr.addr
    exec i s = .next
      (match f.addr.nextPc with
      | some x => u.goes (x &&& 0xFFFFFFFC) (cost + u.refillAt (x &&& 0xFFFFFFFC))
      | none => u.goes (s.pc + 4) cost)

/-- SWP and SWPB: memory gets the old Rm and Rd the old memory (R390 to R392, R880). That r15 costs the refill is the
model's reading (R882, log entry 31), and so is that both accesses are priced before the store takes effect (log entry
23). -/
def Obligations.Swaps : Prop :=
  ∀ (i : Instr) (s : State) (f : SwapForm), armSwapOf i s = some f → s.cpsr.t = false →
    condPassed f.cond s.cpsr = true →
    let a := s.readReg f.rn
    let u := { s with dev := busWrite s.dev f.width a (s.readReg f.rm) }
    let cost := s.sc + s.nd f.width a + s.nd f.width a + 1
    exec i s = .next
      (if f.rd = 15 then u.goes (f.value &&& 0xFFFFFFFC) (cost + u.refillAt (f.value &&& 0xFFFFFFFC))
      else (u.withReg s.cpsr.m f.rd f.value).goes (s.pc + 4) cost)

/-- R380 and R383: the registers of a list in rising order, the first address and the written-back value of each mode;
an empty list moves r15 alone, as if n were 16. -/
def Obligations.BlockAddresses : Prop :=
  ∀ (base : Word) (list : BitVec 16),
    let n := (listRegs list).length
    let size : Word := BitVec.ofNat 32 (if list = 0 then 64 else 4 * n)
    (∀ r : Reg, r ∈ listRegs list ↔ list.getLsbD r.val = true) ∧ (listRegs list).Pairwise (· < ·) ∧
    (blockAddr false true base list).first = base ∧ (blockAddr false true base list).wback = base + size ∧
    (blockAddr true true base list).first = base + 4 ∧ (blockAddr true true base list).wback = base + size ∧
    (blockAddr false false base list).first = base - size + 4 ∧ (blockAddr false false base list).wback = base - size ∧
    (blockAddr true false base list).first = base - size ∧ (blockAddr true false base list).wback = base - size ∧
    (∀ p u, (blockAddr p u base list).regs = if list = 0 then [15] else listRegs list)

/-- LDM, POP and LDMIA: each listed register holds the unrotated word of its address, from or to the bank the form
names; the base is written back unless it is in the list; r15 is a branch, with a PSR restore where S = 1; and the
cost (R381, R383, R385, R386, R492, R494, R495, R880). That a written-back r15 is a branch, and that an empty list
with S = 1 restores no PSR, is the model's reading (log entry 12). So is that a base in the list is never written back
in a user-bank form (log entry 37), and that a written-back r15 costs the refill (R882, log entry 31). -/
def Obligations.BlockLoads : Prop :=
  ∀ (i : Instr) (s : State) (l : LoadBlock), blockLoadOf i s = some l → condPassed l.form.cond s.cpsr = true →
    let u := { s with regs := Vector.ofFn (l.regAfter s) }
    let cost := s.sc + l.form.dataCost s.dev + 1
    match l.pcLoaded s with
    | none =>
      exec i s = .next
        (if l.writesBase = true ∧ l.form.rn = 15 then
          let target := if s.cpsr.t then l.form.out.wback &&& 0xFFFFFFFE else l.form.out.wback &&& 0xFFFFFFFC
          u.goes target (cost + s.refillAt target)
        else u.goes (s.pc + s.instrBytes) cost)
    | some v =>
      if l.restore then
        match s.spsrOf s.cpsr.m with
        | none =>
          let target := if s.cpsr.t then v &&& 0xFFFFFFFE else v &&& 0xFFFFFFFC
          exec i s = .next (u.goes target (cost + s.refillAt target))
        | some p =>
          let x := { u with cpsr := p }
          let target := if p.t then v &&& 0xFFFFFFFE else v &&& 0xFFFFFFFC
          exec i s =
            if legalMode p.m then .next (x.goes target (cost + x.refillAt target)) else .refused .invalidMode
      else
        let target := if s.cpsr.t then v &&& 0xFFFFFFFE else v &&& 0xFFFFFFFC
        exec i s = .next (u.goes target (cost + s.refillAt target))

/-- STM, PUSH and STMIA: the words of the list in order at rising addresses, r15 as pc + 12 (pc + 6 in Thumb state),
the base as it was in the first word and as written back later; the base is written back (R382 to R386, R491, R493,
R495). That a written-back r15 is a branch is the model's reading (log entry 12). So is that it costs the refill
(R882, log entry 31), and that each store is priced before it takes effect (log entry 23). That a banked base in a
user-bank form is stored from the User bank, written back or not, is the model's reading too (log entry 37), and that r15
as a written-back base in the list is stored as pc + 12 (log entry 12). -/
def Obligations.BlockStores : Prop :=
  ∀ (i : Instr) (s : State) (f : BlockForm), blockStoreOf i s = some f → condPassed f.cond s.cpsr = true →
    let u := { s with dev := writeWords s.dev (f.stores s) }
    let v := if f.wback then u.withReg s.cpsr.m f.rn f.out.wback else u
    let cost := s.nc + storesCost (f.stores s) .nonseq s.dev
    let target := if s.cpsr.t then f.out.wback &&& 0xFFFFFFFE else f.out.wback &&& 0xFFFFFFFC
    exec i s = .next
      (if f.wback = true ∧ f.rn = 15 then v.goes target (cost + u.refillAt target)
      else v.goes (s.pc + s.instrBytes) cost)

/-! ## ARM branches -/

/-- B, BL and BX (R400, R401, R403): where they go, the link, the new T, and Sc with the refill. -/
def Obligations.ArmBranches : Prop :=
  ∀ (cond : Cond) (s : State), s.cpsr.t = false → condPassed cond s.cpsr = true →
    (∀ off : BitVec 24,
      let target := BitVec.ofInt 32 ((s.pc.toNat : Int) + 8 + 4 * off.toInt) &&& 0xFFFFFFFC
      exec (.armB cond off) s = .next (s.goes target (s.sc + s.refillAt target)) ∧
      exec (.armBl cond off) s =
        .next ((s.withReg s.cpsr.m 14 (s.pc + 4)).goes target (s.sc + s.refillAt target))) ∧
    (∀ rm : Reg,
      let v := if rm = 15 then s.pc + 8 else s.readReg rm
      let u := { s with cpsr := { s.cpsr with t := v.getLsbD 0 } }
      let target := if v.getLsbD 0 then v &&& 0xFFFFFFFE else v &&& 0xFFFFFFFC
      exec (.armBx cond rm) s = .next (u.goes target (s.sc + u.refillAt target)))

/-! ## Thumb -/

/-- The Thumb branches (R500, R502, R503, R504, R462): where they go, the link, and their cost. -/
def Obligations.ThumbBranches : Prop :=
  ∀ s : State, s.cpsr.t = true →
    let taken := fun (v : Int) =>
      let target := BitVec.ofInt 32 ((s.pc.toNat : Int) + 4 + v) &&& 0xFFFFFFFE
      s.goes target (s.sc + s.refillAt target)
    (∀ (c : Cond) (off : BitVec 8), exec (.thumbBcond c off) s =
      .next (if condPassed c s.cpsr then taken (2 * off.toInt) else s.goes (s.pc + 2) s.sc)) ∧
    (∀ off : BitVec 11, exec (.thumbB off) s = .next (taken (2 * off.toInt))) ∧
    (∀ off : BitVec 11, exec (.thumbBlPrefix off) s = .next
      ((s.withReg s.cpsr.m 14 (BitVec.ofInt 32 ((s.pc.toNat : Int) + 4 + 4096 * off.toInt))).goes (s.pc + 2) s.sc)) ∧
    (∀ off : BitVec 11,
      let target := (s.readReg 14 + BitVec.ofNat 32 (2 * off.toNat)) &&& 0xFFFFFFFE
      exec (.thumbBlSuffix off) s = .next
        ((s.withReg s.cpsr.m 14 ((s.pc + 2) ||| 1)).goes target (s.sc + s.refillAt target))) ∧
    (∀ rs : Reg,
      let v := if rs = 15 then s.pc + 4 else s.readReg rs
      let u := { s with cpsr := { s.cpsr with t := v.getLsbD 0 } }
      let target := if v.getLsbD 0 then v &&& 0xFFFFFFFE else v &&& 0xFFFFFFFC
      exec (.thumbBx rs) s = .next (u.goes target (s.sc + u.refillAt target)))

/-- The Thumb register operations. Formats 1 to 4 but MUL write a register and the flags, with an I for a shift by a
register (R431 to R438, R440 to R449, R451, R454, R456, R457); the comparisons write the flags alone (R439, R450, R452,
R453, R460); moves and address computations write a register and no flag, and r15 is a branch that stays in Thumb state
(R459, R461, R487 to R490). Each costs Sc besides (R880). -/
def Obligations.ThumbRegisterOperations : Prop :=
  ∀ (i : Instr) (s : State), s.cpsr.t = true →
    (∀ o : ThumbOp, thumbOpOf i s = some o →
      exec i s = .next
        { (s.withReg s.cpsr.m (lowReg o.rd) (aluResult o.op o.first o.snd.value s.cpsr.c)).goes (s.pc + 2)
            (s.sc + o.extra) with
          cpsr := aluFlags o.op o.first o.snd.value o.snd.carry s.cpsr }) ∧
    (∀ (op : AluOp) (a b : Word), thumbTestOf i s = some (op, a, b) →
      exec i s = .next { s.goes (s.pc + 2) s.sc with cpsr := aluFlags op a b s.cpsr.c s.cpsr }) ∧
    (∀ (rd : Reg) (v : Word), thumbMoveOf i s = some (rd, v) →
      exec i s = .next
        (if rd = 15 then s.goes (v &&& 0xFFFFFFFE) (s.sc + s.refillAt (v &&& 0xFFFFFFFE))
        else (s.withReg s.cpsr.m rd v).goes (s.pc + 2) s.sc))

/-- The Thumb single transfers: a load writes its register (R470, R473, R474, R476 to R478, R480, R482, R484, R486),
at Sc, Nd and one I; a store is one bus write (R471, R472, R475, R479, R481, R483, R485), at Nc and Nd; pc + 2 (R880).
That a store is priced before it takes effect is the model's reading (log entry 23). -/
def Obligations.ThumbSingleTransfers : Prop :=
  ∀ (i : Instr) (s : State), s.cpsr.t = true →
    (∀ f : ThumbMem, thumbLoadOf i s = some f →
      exec i s = .next
        ((s.withReg s.cpsr.m (lowReg f.rd) f.value).goes (s.pc + 2) (s.sc + s.nd f.width f.addr + 1))) ∧
    (∀ (w : Width) (rd : LowReg) (a : Word), thumbStoreOf i s = some (w, rd, a) →
      exec i s = .next
        ({ s with dev := busWrite s.dev w a (s.readReg (lowReg rd)) }.goes (s.pc + 2) (s.nc + s.nd w a)))

/-! ## Undefined encodings, traps and services -/

/-- R214, R405, R505: under UNDEF_POLICY = Nop an undefined or coprocessor encoding only goes to the next instruction. -/
def Obligations.UndefinedIsNop : Prop :=
  ∀ (i : Instr) (s : State), isUndefined i = true → mayRun i s → s.dev.params.undefPolicy = .nop →
    exec i s = .next (s.goes (s.pc + s.instrBytes) s.sc)

/-- R602, R612, R605 to R607, R404, R501: under UNDEF_POLICY = Trap an undefined encoding, and under SWI_MODE = Trap a
software interrupt, takes its exception with the address of the following instruction in r14; with the stub BIOS it is
refused. -/
def Obligations.TrapsAreTaken : Prop :=
  ∀ (i : Instr) (s : State), mayRun i s →
    (isUndefined i = true → s.dev.params.undefPolicy = .trap →
      exec i s = match s.dev.params.biosKind with
        | .supplied => .next (enteredException s modeUnd 0x04 (s.pc + s.instrBytes) (s.sc + 2))
        | .stub => .refused .trapWithStubBios) ∧
    (isSwi i = true → s.dev.params.swiMode = .trap →
      exec i s = match s.dev.params.biosKind with
        | .supplied => .next (enteredException s modeSvc 0x08 (s.pc + s.instrBytes) (s.sc + 2))
        | .stub => .refused .trapWithStubBios)

/-- R520, R524, R525, R536, R550, R552, R554, R555, R556: under SWI_MODE = HLE these services leave r14_svc and SPSR_svc
as the hardware entry would, and return with `bios_latch` as the BIOS leaves it: an unlisted number does nothing else;
Halt, Stop and CustomHalt change the run state, CustomHalt by bit 7 of r2; GetBiosChecksum writes r0. That CustomHalt's
write of HALTCNT is a bus write, which costs a cycle and is noted in the model's own field, is the model's choice (log
entries 36 and 9). The sound and MultiBoot services do so under their executable defaults; drawn, they return
with the status word as it was, and that they write registers and memory alone is the model's choice (log entry 5). -/
def Obligations.ServicesReturn : Prop :=
  ∀ (i : Instr) (s : State) (n : Nat), swiNumber i = some n → mayRun i s → s.dev.params.swiMode = .hle →
    let sound := n ∈ [0x1A, 0x1B, 0x1C, 0x1D, 0x1E, 0x20, 0x21, 0x22, 0x23, 0x24, 0x28, 0x29, 0x2A]
    let drawn := (sound ∧ s.dev.params.biosSound = .draw) ∨ (n = 0x25 ∧ s.dev.params.biosMultiBoot = .draw)
    (0x2B ≤ n → exec i s = .next (hleDone s (hleSaved s))) ∧
    (n = 0x02 → exec i s = .next (hleDone s ((hleSaved s).setRun (.halted .halt)))) ∧
    (n = 0x03 → exec i s = .next (hleDone s ((hleSaved s).setRun (.halted .stop)))) ∧
    (n = 0x0D → exec i s = .next (hleDone s ((hleSaved s).withReg s.cpsr.m 0 0xBAAE187F))) ∧
    (n = 0x27 →
      let u := (hleSaved s).setRun (.halted (if (s.readReg 2).getLsbD 7 then .stop else .halt))
      exec i s = .next ((hleDone s { u with dev := notePort [0x180] u.dev }).charge 1)) ∧
    (sound → s.dev.params.biosSound = .executableDefault → exec i s = .next (hleDone s (hleSaved s))) ∧
    (n = 0x25 → s.dev.params.biosMultiBoot = .executableDefault →
      exec i s = .next (hleDone s ((hleSaved s).withReg s.cpsr.m 0 1))) ∧
    (drawn → ∃ t, exec i s = .next t ∧ t.pc = s.pc + s.instrBytes ∧ t.cpsr = s.cpsr ∧ t.spsrSvc = s.cpsr ∧
      t.biosLatch = 0xE3A02004 ∧ t.freeCount = s.freeCount + 1)

/-- R522: SoftReset clears the byte area 0x03007E00 to 0x03007FFF and r0 to r12 of the caller's bank, sets the stack
pointers, the link registers and SPSRs of svc and irq, and the status word, and goes to the cartridge or to EWRAM by the
byte at 0x03007FFA as it was. -/
def Obligations.SoftResetService : Prop :=
  ∀ (i : Instr) (s : State), swiNumber i = some 0 → mayRun i s → s.dev.params.swiMode = .hle → s.MemoryOk →
    ∃ t, exec i s = .next t ∧
      t.pc = (if cellRead s.dev.mem 0x03007FFA = 0 then 0x08000000 else 0x02000000) ∧ psrWord t.cpsr = 0x0000001F ∧
      (∀ r : Reg, r < 13 → t.bankedReg s.cpsr.m r = 0) ∧
      (t.bankedReg modeUsr 13 = 0x03007F00 ∧ t.bankedReg modeIrq 13 = 0x03007FA0 ∧
        t.bankedReg modeSvc 13 = 0x03007FE0 ∧ t.bankedReg modeSvc 14 = 0 ∧ t.bankedReg modeIrq 14 = 0) ∧
      (psrWord t.spsrSvc = 0 ∧ psrWord t.spsrIrq = 0) ∧
      (∀ k, cellRead t.dev.mem k = if 0x03007E00 ≤ k ∧ k < 0x03008000 then 0 else cellRead s.dev.mem k)

/-- R529, R530, R531: Div and DivArm round the quotient toward zero, the remainder has the sign of the numerator, and
r3 is the quotient's magnitude; by zero pc stays on the software interrupt and r0 to r3 are unchanged. Sqrt gives the
integer square root. That a division by zero leaves `bios_latch` as it was is the model's reading (log entry 13). -/
def Obligations.ArithmeticServices : Prop :=
  ∀ (i : Instr) (s : State) (n : Nat), swiNumber i = some n → mayRun i s → s.dev.params.swiMode = .hle →
    (n = 0x06 ∨ n = 0x07 →
      let num := if n = 0x06 then s.readReg 0 else s.readReg 1
      let den := if n = 0x06 then s.readReg 1 else s.readReg 0
      (den = 0 → exec i s = .next ((hleSaved s).goes s.pc (s.sc + s.refillAt s.pc))) ∧
      (den ≠ 0 → ∃ q r : Int,
        num.toInt = q * den.toInt + r ∧ r.natAbs < den.toInt.natAbs ∧ (r = 0 ∨ (r < 0 ↔ num.toInt < 0)) ∧
        exec i s = .next (hleDone s
          ((((hleSaved s).withReg s.cpsr.m 0 (BitVec.ofInt 32 q)).withReg s.cpsr.m 1 (BitVec.ofInt 32 r)).withReg
            s.cpsr.m 3 (BitVec.ofNat 32 q.natAbs))))) ∧
    (n = 0x08 → ∃ r : Nat,
      r < 2 ^ 16 ∧ r * r ≤ (s.readReg 0).toNat ∧ (s.readReg 0).toNat < (r + 1) * (r + 1) ∧
      exec i s = .next (hleDone s ((hleSaved s).withReg s.cpsr.m 0 (BitVec.ofNat 32 r))))

/-! ## Exceptions, interrupts and privilege -/

/-- R624 and R625: the poll takes the IRQ exactly when IME, an enabled request, a clear I and the Running state meet;
it saves pc + 4 and the status word and changes no request; otherwise it changes nothing. The cost is 3
where CYCLE_COST is the table, and its form elsewhere the model's choice (log entry 35). -/
def Obligations.InterruptPoll : Prop :=
  ∀ s : State,
    let due := s.dev.ime.getLsbD 0 = true ∧ s.dev.ie &&& s.dev.iflag &&& 0x3FFF ≠ 0 ∧ s.cpsr.i = false ∧
      s.dev.run = .running
    (due → pollInterrupts s = enteredException s modeIrq 0x18 (s.pc + 4) (irqCycles s.dev.params)) ∧
      (¬ due → pollInterrupts s = s) ∧ (s.dev.params.cycleCost = .table → irqCycles s.dev.params = 3)

/-- R607 and R609: `MOVS pc, lr` (0xE1B0F00E) returns from a Software Interrupt or Undefined trap to the instruction after
it, and `SUBS pc, lr, #4` (0xE25EF004) from an IRQ to where it was taken, with the caller's whole status word, whatever
the handler did meanwhile to the rest of the machine. -/
def Obligations.ExceptionReturns : Prop :=
  ∀ (s u : State) (m : BitVec 5) (v l : Word) (cost : Nat), s.ModePcOk →
    (m = modeSvc ∨ m = modeUnd ∨ m = modeIrq) →
    let t := enteredException s m v l cost
    u.cpsr.m = m → u.cpsr.t = false → u.spsrOf m = t.spsrOf m → u.bankedReg m 14 = t.bankedReg m 14 →
    (l = s.pc + s.instrBytes →
      ∃ x, exec (decodeWord false 0xE1B0F00E) u = .next x ∧ x.cpsr = s.cpsr ∧ x.pc = s.pc + s.instrBytes ∧
        x.regs = u.regs ∧ x.dev = u.dev) ∧
    (l = s.pc + 4 →
      ∃ x, exec (decodeWord false 0xE25EF004) u = .next x ∧ x.cpsr = s.cpsr ∧ x.pc = s.pc ∧
        x.regs = u.regs ∧ x.dev = u.dev)

/-- R630 and R631: only MSR, a PSR restore, a trap or a service changes the mode; in User mode only a software interrupt,
or an undefined encoding under Trap, leaves it or touches the interrupt masks. -/
def Obligations.ModeChangesOnlyAsListed : Prop :=
  ∀ (i : Instr) (s t : State), exec i s = .next t →
    (t.cpsr.m ≠ s.cpsr.m → mayChangeMode i = true) ∧
    (s.cpsr.m = modeUsr → isSwi i = false → isUndefined i = false ∨ s.dev.params.undefPolicy = .nop →
      t.cpsr.m = modeUsr ∧ t.cpsr.i = s.cpsr.i ∧ t.cpsr.f = s.cpsr.f ∧ sameSpsrs s t)

/-! ## Frames -/

/-- What an instruction leaves of the CPU: every physical register but those it may write, the fields of the status word
it does not set, the saved status words, and the hidden state. -/
def Obligations.CpuFrame : Prop :=
  ∀ (i : Instr) (s t : State), exec i s = .next t →
    (∀ x : Fin 30, x ∉ writtenRegs i s → t.regs[x] = s.regs[x]) ∧
    (statusEffect i).allows s.cpsr t.cpsr ∧
    (mayWriteSpsr i = false → sameSpsrs s t) ∧
    (isSwi i = false → sameHidden s t) ∧
    (mayDraw i = false → t.freeCount = s.freeCount)

/-- What an instruction leaves of memory and devices: an instruction that stores nothing leaves all of it, and a store
leaves every byte of memory but those it writes: the bytes of its accesses, for a byte store to palette RAM or to VRAM below
the OBJ boundary the aligned halfword, and none for one to OAM or to VRAM from the boundary on (R109 to R111). The
addresses are the ones the meanings use. -/
def Obligations.MemoryFrame : Prop :=
  ∀ (i : Instr) (s t : State), isSwi i = false → exec i s = .next t →
    (storesTo i s = [] → t.dev = s.dev) ∧
    (∀ k, (∀ x ∈ storesTo i s, k ∉ storedKeys s.dev x.1 x.2) → cellRead t.dev.mem k = cellRead s.dev.mem k)

/-! ## The bus -/

/-- R104: region decode over the whole 32-bit space. -/
def Obligations.RegionDecode : Prop :=
  ∀ a < 2 ^ 32,
    (regionOf a = .bios ↔ a < 0x4000) ∧
    (regionOf a = .ewram ↔ 0x02000000 ≤ a ∧ a < 0x03000000) ∧
    (regionOf a = .iwram ↔ 0x03000000 ≤ a ∧ a < 0x04000000) ∧
    (regionOf a = .io ↔ 0x04000000 ≤ a ∧ a < 0x05000000) ∧
    (regionOf a = .palette ↔ 0x05000000 ≤ a ∧ a < 0x06000000) ∧
    (regionOf a = .vram ↔ 0x06000000 ≤ a ∧ a < 0x07000000) ∧
    (regionOf a = .oam ↔ 0x07000000 ≤ a ∧ a < 0x08000000) ∧
    (regionOf a = .rom 0 ↔ 0x08000000 ≤ a ∧ a < 0x0A000000) ∧
    (regionOf a = .rom 1 ↔ 0x0A000000 ≤ a ∧ a < 0x0C000000) ∧
    (regionOf a = .rom 2 ↔ 0x0C000000 ≤ a ∧ a < 0x0E000000) ∧
    (regionOf a = .backup ↔ 0x0E000000 ≤ a ∧ a < 0x10000000) ∧
    (regionOf a = .unmapped ↔ (0x4000 ≤ a ∧ a < 0x02000000) ∨ 0x10000000 ≤ a)

/-- R101, R106, R107, R109 to R111, R118: what a store to work RAM writes, and a halfword or word store to palette RAM, VRAM
and OAM. It reads back in its own width at the aligned address and at every mirror of it in the region, byte by byte
little-endian, and every other byte of the region reads as before; halfwords and words read as their bytes. `place` is
the byte of the region's memory that an address names. -/
def Obligations.RamStoresReadBack : Prop :=
  ∀ (d : Devices) (view : BusView) (w : Width) (a v : Word), d.mem.wf = true →
    let r := regionOf a.toNat
    let place := fun (c : Word) =>
      if r = .ewram then c.toNat % 0x40000
      else if r = .iwram then c.toNat % 0x8000
      else if r = .vram then
        (if 0x18000 ≤ c.toNat % 0x20000 then c.toNat % 0x20000 - 0x8000 else c.toNat % 0x20000)
      else c.toNat % 0x400
    (r = .ewram ∨ r = .iwram ∨ (w ≠ .byte ∧ (r = .palette ∨ r = .vram ∨ r = .oam))) →
    let e := busWrite d w a v
    ∀ c : Word, regionOf c.toNat = r →
      let h := c &&& 0xFFFFFFFE
      let x := c &&& 0xFFFFFFFC
      (place c / w.bytes = place a / w.bytes → busRead e view w c = v &&& BitVec.ofNat 32 (2 ^ (8 * w.bytes) - 1)) ∧
      (busRead e view .byte c =
        if place c / w.bytes = place a / w.bytes then (v >>> (8 * (place c % w.bytes))) &&& 0xFF
        else busRead d view .byte c) ∧
      (busRead e view .half c = (busRead e view .byte h ||| busRead e view .byte (h + 1) <<< 8)) ∧
      (busRead e view .word c = (busRead e view .half x ||| busRead e view .half (x + 2) <<< 16))

/-- R105, R109, R110, R111, R115, R117: byte writes to palette RAM and low VRAM fill the halfword; byte writes to OAM
and to VRAM from the OBJ boundary on are ignored, as are writes to the BIOS, to unmapped addresses and to ROM outside
the EEPROM window. `offset` is the VRAM offset of R110 and `boundary` its OBJ boundary; that the boundary is 0x10000 in
BG modes 6 and 7 too is the model's reading (log entry 34). -/
def Obligations.NarrowAndIgnoredWrites : Prop :=
  ∀ (d : Devices) (w : Width) (a v : Word),
    let o := (a &&& 0x1FFFF).toNat
    let offset := if 0x18000 ≤ o then o - 0x8000 else o
    let mode := d.ppu.dispcnt &&& 7
    let boundary := if mode = 3 ∨ mode = 4 ∨ mode = 5 then 0x14000 else 0x10000
    (regionOf a.toNat = .bios ∨ regionOf a.toNat = .unmapped → busWrite d w a v = d) ∧
    (∀ n, regionOf a.toNat = .rom n → inEepromWindow d (alignTo w a.toNat) = false → busWrite d w a v = d) ∧
    (regionOf a.toNat = .oam → busWrite d .byte a v = d) ∧
    (regionOf a.toNat = .palette →
      busWrite d .byte a v = busWrite d .half a (BitVec.ofNat 32 (v.toNat % 256 * 257))) ∧
    (regionOf a.toNat = .vram → boundary ≤ offset → busWrite d .byte a v = d) ∧
    (regionOf a.toNat = .vram → offset < boundary →
      busWrite d .byte a v = busWrite d .half a (BitVec.ofNat 32 (v.toNat % 256 * 257)))

/-- R112, R114, R117: a data read of an unmapped address gives the lanes of `prefetch_latch`; a read of the BIOS region
gives those of `bios_latch` while pc is outside it, and the image's bytes while pc is inside. -/
def Obligations.OpenBusAndBiosProtection : Prop :=
  ∀ (s : State) (w : Width) (a : Word),
    let lanes := fun (latch : Word) =>
      (latch >>> (8 * (a.toNat % 4 / w.bytes * w.bytes))) &&& BitVec.ofNat 32 (2 ^ (8 * w.bytes) - 1)
    (regionOf a.toNat = .unmapped → s.load w a = lanes s.prefetchLatch) ∧
    (a.toNat < 0x4000 → 0x4000 ≤ s.pc.toNat → s.load w a = lanes s.biosLatch) ∧
    (a.toNat < 0x4000 → s.pc.toNat < 0x4000 →
      ∀ k < w.bytes, byteOf (s.load w a) k = cellRead s.dev.mem (a.toNat / w.bytes * w.bytes + k))

/-- R131 with R130: the cost of an access by region and width, in terms of WAITCNT's bits; a ROM address that is a
multiple of 128 KiB is non-sequential. -/
def Obligations.AccessCosts : Prop :=
  ∀ (d : Devices) (w : Width) (a : Word) (q : Access),
    let word := decide (w = .word)
    let wait := fun (field : Nat) => ([4, 3, 2, 8] : List Nat).getD (d.waitcnt.toNat / 2 ^ field % 4) 0
    (∀ r, regionOf a.toNat = r → r = .bios ∨ r = .iwram ∨ r = .io ∨ r = .oam ∨ r = .unmapped →
      accessCost d w a q = 1) ∧
    (regionOf a.toNat = .ewram → accessCost d w a q = if word then 6 else 3) ∧
    (regionOf a.toNat = .palette ∨ regionOf a.toNat = .vram → accessCost d w a q = if word then 2 else 1) ∧
    (regionOf a.toNat = .backup → accessCost d w a q = 1 + wait 0) ∧
    (∀ n, regionOf a.toNat = .rom n →
      let waitN := wait (2 + 3 * n.val)
      let waitS := if d.waitcnt.getLsbD (4 + 3 * n.val) then 1 else ([2, 4, 8] : List Nat).getD n.val 0
      let first := if q = .nonseq ∨ alignTo w a.toNat % 0x20000 = 0 then waitN else waitS
      accessCost d w a q = (1 + first) + (if word then 1 + waitS else 0))

/-! ## Devices -/

/-- R620, R621, R622, R641: what halfword writes to IE, IF, IME and POSTFLG/HALTCNT do. A write of IF clears the bits
written as 1 and sets none. Each is noted as an I/O store of the step, the model's own field (log entry 9). -/
def Obligations.InterruptRegisterWrites : Prop :=
  ∀ (d : Devices) (v : Word),
    let h : Half := BitVec.ofNat 16 v.toNat
    busWrite d .half 0x04000200 v = notePort [0x100] { d with ie := h &&& 0x3FFF } ∧
    busWrite d .half 0x04000202 v = notePort [0x101] { d with iflag := d.iflag &&& ~~~h } ∧
    busWrite d .half 0x04000208 v = notePort [0x104] { d with ime := h &&& 1 } ∧
    busWrite d .half 0x04000300 v =
      notePort [0x180]
        { d with postflg := BitVec.ofNat 8 (v.toNat % 2), run := .halted (if h.getLsbD 15 then .stop else .halt) } ∧
    busWrite d .byte 0x04000301 v = notePort [0x180] { d with run := .halted (if v.getLsbD 7 then .stop else .halt) }

/-- R655 and R653: a start reloads the counter, a stop keeps it, a write to a running timer does not reload; and timer 0
running alone without prescaler counts by one, or at 0xFFFF reloads and requests its interrupt if enabled. -/
def Obligations.TimerControlAndCount : Prop :=
  (∀ (t : Timer) (v : Half),
    (timerWriteCtl t v).ctl = v &&& 0x00C7 ∧ (timerWriteCtl t v).reload = t.reload ∧
    (v.getLsbD 7 = true → t.ctl.getLsbD 7 = false →
      (timerWriteCtl t v).counter = t.reload ∧ (timerWriteCtl t v).phase = 0) ∧
    (v.getLsbD 7 = false ∨ t.ctl.getLsbD 7 = true → (timerWriteCtl t v).counter = t.counter)) ∧
  (∀ d : Devices,
    d.timers[0].ctl.getLsbD 7 = true → d.timers[0].ctl.toNat % 4 = 0 →
    d.timers[1].ctl.getLsbD 7 = false → d.timers[2].ctl.getLsbD 7 = false → d.timers[3].ctl.getLsbD 7 = false →
    (tickTimers d).timers[0].counter =
      (if d.timers[0].counter = 0xFFFF then d.timers[0].reload else d.timers[0].counter + 1) ∧
    (tickTimers d).iflag =
      (if d.timers[0].counter = 0xFFFF ∧ d.timers[0].ctl.getLsbD 6 = true then d.iflag ||| 8 else d.iflag))

/-- R701, R702, R704: what a write that enables a DMA channel latches, and that a write to an enabled channel latches
nothing and a clearing write disarms. That it drops a scheduled immediate transfer too, of which R704 does not speak, is the
model's choice (log entry 17). -/
def Obligations.DmaEnable : Prop :=
  ∀ (d : Devices) (n : Fin 4) (v : Word),
    let c := d.dma[n]
    let h : Half := BitVec.ofNat 16 v.toNat
    let e := (busWrite d .half (0x040000BA + BitVec.ofNat 32 (12 * n.val)) v).dma[n]
    let most := if n = 3 then 0x10000 else 0x4000
    (e.cntH = h &&& (if n = 3 then 0xFFE0 else 0xF7E0) ∧ e.sad = c.sad ∧ e.dad = c.dad ∧ e.cntL = c.cntL) ∧
    (h.getLsbD 15 = true → c.cntH.getLsbD 15 = false →
      e.src = c.sad ∧ e.dst = c.dad ∧
        e.count.toNat = (if c.cntL.toNat % most = 0 then most else c.cntL.toNat % most) ∧
        (e.pending = true ↔ h.toNat / 0x1000 % 4 = 0)) ∧
    (h.getLsbD 15 = true → c.cntH.getLsbD 15 = true →
      e.src = c.src ∧ e.dst = c.dst ∧ e.count = c.count ∧ e.pending = c.pending) ∧
    (h.getLsbD 15 = false → e.src = c.src ∧ e.dst = c.dst ∧ e.count = c.count ∧ e.pending = false)

/-- R741 and R742: the beam moves one dot a cycle and wraps at 1232 dots and 228 lines; the HBlank flag rises at dot 960 and
falls at the next line; the VBlank flag rises at line 160, where the frame is published, and falls at line 0; other dots
change nothing else. -/
def Obligations.BeamAndBlankFlags : Prop :=
  ∀ d : Devices, d.ppu.line < 228 → d.ppu.dot < 1232 →
    let e := tickPpu d
    let next := if d.ppu.line = 227 then 0 else d.ppu.line + 1
    (d.ppu.dot ≠ 959 → d.ppu.dot ≠ 1231 → e = { d with ppu := { d.ppu with dot := d.ppu.dot + 1 } }) ∧
    (d.ppu.dot = 959 →
      e.ppu.dot = 960 ∧ e.ppu.line = d.ppu.line ∧ e.ppu.dispstat = d.ppu.dispstat ||| 2 ∧ e.ppu.front = d.ppu.front ∧
        e.iflag = (if d.ppu.dispstat.getLsbD 4 then d.iflag ||| 2 else d.iflag)) ∧
    (d.ppu.dot = 1231 →
      e.ppu.dot = 0 ∧ e.ppu.line = next ∧ e.ppu.dispstat.getLsbD 1 = false ∧
        (e.ppu.dispstat.getLsbD 2 = true ↔ next = d.ppu.dispstat.toNat / 0x100) ∧
        (e.ppu.dispstat.getLsbD 0 = if next = 160 then true else if next = 0 then false else d.ppu.dispstat.getLsbD 0) ∧
        e.ppu.front = (if next = 160 then d.ppu.back else d.ppu.front) ∧
        (e.iflag.getLsbD 0 = (d.iflag.getLsbD 0 || (decide (next = 160) && d.ppu.dispstat.getLsbD 3))) ∧
        (e.iflag.getLsbD 2 =
          (d.iflag.getLsbD 2 || (decide (next = d.ppu.dispstat.toNat / 0x100) && d.ppu.dispstat.getLsbD 5))))

/-- R660 and R661: the host's input sets KEYINPUT to the buttons' complement and requests the keypad interrupt exactly when
KEYCNT enables it and its condition, any or all of the selected buttons, holds. -/
def Obligations.KeypadInput : Prop :=
  ∀ (s : State) (pressed : BitVec 10),
    let k := s.dev.keycnt
    let hit := k.getLsbD 14 = true ∧
      (if k.getLsbD 15 then ∀ b < 10, k.getLsbD b = true → pressed.getLsbD b = true
        else ∃ b < 10, k.getLsbD b = true ∧ pressed.getLsbD b = true)
    let t := updateInput s pressed
    (∀ b < 10, t.dev.keyinput.getLsbD b = !pressed.getLsbD b) ∧ t.dev.keyinput &&& 0xFC00 = 0 ∧
    (hit → t.dev.iflag = s.dev.iflag ||| 0x1000) ∧ (¬ hit → t.dev.iflag = s.dev.iflag) ∧ sameCpu s t

/-! ## Steps that run no instruction -/

/-- R856, R642, R684, R682: a paused step returns 0 and changes nothing; a stopped step without a wake request too; a step
at a breakpoint pauses before its instruction. -/
def Obligations.IdleSteps : Prop :=
  ∀ s : State,
    (∀ k, s.dev.run = .paused k → step s = .next { s with stepCycles := 0 }) ∧
    (s.dev.run = .halted .stop → s.dev.ie &&& s.dev.iflag &&& 0x3080 = 0 → step s = .next { s with stepCycles := 0 }) ∧
    (s.dev.run = .running → s.pc ∈ s.dbg.breakpoints → s.dbg.bpSkip = false →
      step s = .next { s.setRun (.paused none) with stepCycles := 0 })

/-- R627, R640, R856: a halted step advances the devices by HALT_QUANTUM and runs no instruction. It ends with the CPU as
it was or with an IRQ taken, all its cycles counted. With no enabled request the CPU is as it was; with one that IME or I
masks it is Running at the same pc. -/
def Obligations.HaltedStepWakes : Prop :=
  ∀ s t : State, s.dev.run = .halted .halt → step s = .next t →
    ∃ a, advanceDevices s.dev.params.haltQuantum { s with stepCycles := s.dev.params.haltQuantum } = .next a ∧
      (sameCpu s t ∨ sameCpu (enteredException s modeIrq 0x18 (s.pc + 4) 0) t) ∧
      t.cycleCount = s.cycleCount + BitVec.ofNat 64 t.stepCycles ∧ s.dev.params.haltQuantum ≤ t.stepCycles ∧
      (pendingIrqs a.keypad.dev = 0 → sameCpu s t ∧ t.dev = a.keypad.dev) ∧
      (pendingIrqs a.keypad.dev ≠ 0 → s.cpsr.i = true ∨ a.dev.ime.getLsbD 0 = false →
        sameCpu s t ∧ t.dev.run = .running) ∧
      (pendingIrqs a.keypad.dev ≠ 0 → s.cpsr.i = false → a.dev.ime.getLsbD 0 = true →
        sameCpu (enteredException s modeIrq 0x18 (s.pc + 4) 0) t)

/-! ## Reset -/

/-- R850, R33, R39, R40, R601: the host's reset with BOOT_MODE = DirectBoot, from any state: the registers, pc and status
words, the images kept and RAM cleared (with the default MEM_INIT), interrupts off; with FromFirmware, Supervisor mode at
address 0 with both masks set, refused with the stub BIOS. -/
def Obligations.HostResetState : Prop :=
  ∀ s : State,
    (s.dev.params.bootMode = .directBoot → s.dev.params.memInit = [] →
      ∃ t, hostReset s = .next t ∧ t.pc = 0x08000000 ∧ psrWord t.cpsr = 0x0000001F ∧
        (∀ x : Fin 30, t.regs[x] =
          if x = 13 then 0x03007F00 else if x = 22 then 0x03007FA0 else if x = 24 then 0x03007FE0 else 0) ∧
        (psrWord t.spsrFiq = 0 ∧ psrWord t.spsrIrq = 0 ∧ psrWord t.spsrSvc = 0 ∧ psrWord t.spsrAbt = 0 ∧
          psrWord t.spsrUnd = 0) ∧
        t.prefetchLatch = 0 ∧ t.biosLatch = 0xE129F000 ∧ t.intrwaitMask = 0 ∧ t.cycleCount = 0 ∧ t.dev.run = .running ∧
        (t.dev.ie = 0 ∧ t.dev.iflag = 0 ∧ t.dev.ime = 0 ∧ t.dev.keyinput = 0x03FF ∧ t.dev.ppu.dispcnt = 0x0080) ∧
        t.dev.romSize = s.dev.romSize ∧ t.dev.params = s.dev.params ∧
        (∀ k, cellRead t.dev.mem k =
          if 0x02000000 ≤ k ∧ k < 0x08000000 then 0 else cellRead s.dev.mem k)) ∧
    (s.dev.params.bootMode = .fromFirmware → s.dev.params.biosKind = .supplied →
      ∃ t, hostReset s = .next t ∧ t.pc = 0 ∧ t.cpsr.m = modeSvc ∧ t.cpsr.i = true ∧ t.cpsr.f = true ∧
        t.cpsr.t = false ∧ t.dev.postflg = 0) ∧
    (s.dev.params.bootMode = .fromFirmware → s.dev.params.biosKind = .stub →
      hostReset s = .refused .firmwareBootWithStubBios)

/-- The state after reset meets the invariants. -/
def Obligations.ResetMeetsInvariants : Prop :=
  State.reset.ModePcOk ∧ State.reset.MemoryOk ∧ State.reset.DevicesOk ∧ Sys2Proof.core.reset = State.reset

/-! ## Invariants -/

/-- Every step keeps memory in canonical form: equal memories are equal data. -/
def Obligations.StepKeepsMemoryCanonical : Prop := ∀ s t : State, s.MemoryOk → step s = .next t → t.MemoryOk

/-- R31, R35, R36, R119: every step keeps the mode one of the seven and pc aligned for the instruction state. -/
def Obligations.StepKeepsModeAndPc : Prop := ∀ s t : State, s.ModePcOk → step s = .next t → t.ModePcOk

/-- Every step keeps the devices in bounds: the beam in the frame, reserved register bits 0, the FIFO occupancies and DMA
addresses in range. -/
def Obligations.StepKeepsDeviceBounds : Prop := ∀ s t : State, s.DevicesOk → step s = .next t → t.DevicesOk
end

