-- ==== Sys2Proof/Laws/Memory.lean ====
section
/-! SUPPORT. Reading and writing the bytes of memory: a read after a write, and that every memory operation keeps the
canonical form. -/

namespace Sys2Proof.Machine

/-- The canonical form from a later address on is the canonical form from an earlier one on. -/
theorem Memory.wfFrom_mono {lo hi : Nat} {m : Memory} (hle : lo ≤ hi) (h : Memory.wfFrom hi m = true) :
    Memory.wfFrom lo m = true := by
  cases m with
  | nil => rfl
  | cons c m =>
    simp only [Memory.wfFrom, Bool.and_eq_true, decide_eq_true_eq] at h ⊢
    exact ⟨Nat.le_trans hle h.1, h.2⟩

/-- Below the first address of a canonical list nothing is listed. -/
theorem cellRead_below {lo a : Nat} {m : Memory} (h : Memory.wfFrom lo m = true) (ha : a < lo) :
    cellRead m a = unlistedByte a := by
  induction m generalizing lo with
  | nil => rfl
  | cons c m ih =>
    simp only [Memory.wfFrom, Bool.and_eq_true, decide_eq_true_eq] at h
    rw [cellRead, if_neg (by omega)]
    exact ih h.2.2 (by omega)

/-- A write keeps the canonical form from an address up to the one written. -/
theorem cellWrite_wfFrom {lo a : Nat} {m : Memory} (v : Byte) (h : Memory.wfFrom lo m = true) (ha : lo ≤ a) :
    Memory.wfFrom lo (cellWrite m a v) = true := by
  induction m generalizing lo with
  | nil => by_cases hv : v = unlistedByte a <;> simp [cellWrite, Memory.wfFrom, hv, ha]
  | cons c m ih =>
    have h' := h
    simp only [Memory.wfFrom, Bool.and_eq_true, decide_eq_true_eq] at h'
    obtain ⟨h1, h2, h3⟩ := h'
    unfold cellWrite
    split
    · rename_i hlt
      split
      · exact h
      · rename_i hv
        simp only [Memory.wfFrom, Bool.and_eq_true, decide_eq_true_eq]
        exact ⟨ha, hv, by omega, h2, h3⟩
    · split
      · rename_i heq
        split
        · exact Memory.wfFrom_mono (by omega) h3
        · rename_i hv
          simp only [Memory.wfFrom, Bool.and_eq_true, decide_eq_true_eq]
          exact ⟨ha, hv, heq ▸ h3⟩
      · simp only [Memory.wfFrom, Bool.and_eq_true, decide_eq_true_eq]
        exact ⟨h1, h2, ih h3 (by omega)⟩

/-- A write keeps the canonical form. -/
theorem cellWrite_wf {m : Memory} (a : Nat) (v : Byte) (h : m.wf = true) : (cellWrite m a v).wf = true :=
  cellWrite_wfFrom v h (Nat.zero_le a)

/-- A write leaves every other address as it was. -/
theorem cellRead_cellWrite_other (m : Memory) {a b : Nat} (v : Byte) (h : b ≠ a) :
    cellRead (cellWrite m a v) b = cellRead m b := by
  induction m with
  | nil => by_cases hv : v = unlistedByte a <;> simp [cellWrite, cellRead, hv, h.symm]
  | cons c m ih =>
    unfold cellWrite
    split
    · split <;> simp [cellRead, h.symm]
    · split
      · rename_i heq
        split <;> simp [cellRead, heq ▸ h.symm, h.symm]
      · simp [cellRead, ih]

/-- In a canonical memory, a read after a write at one address gives the byte written. -/
theorem cellRead_cellWrite_same {m : Memory} (a : Nat) (v : Byte) (h : m.wf = true) :
    cellRead (cellWrite m a v) a = v := by
  suffices H : ∀ lo, Memory.wfFrom lo m = true → cellRead (cellWrite m a v) a = v from H 0 h
  clear h
  induction m with
  | nil => intro lo _; by_cases hv : v = unlistedByte a <;> simp [cellWrite, cellRead, hv]
  | cons c m ih =>
    intro lo h
    have h' := h
    simp only [Memory.wfFrom, Bool.and_eq_true, decide_eq_true_eq] at h'
    unfold cellWrite
    split
    · rename_i hlt
      split
      · rename_i hv
        rw [cellRead, if_neg (by omega), cellRead_below h'.2.2 (by omega), hv]
      · simp [cellRead]
    · split
      · rename_i heq
        split
        · rename_i hv
          rw [cellRead_below h'.2.2 (by omega), hv]
        · simp [cellRead]
      · rename_i hlt hne
        rw [cellRead, if_neg (Ne.symm hne)]
        exact ih _ h'.2.2

/-- Dropping entries keeps the canonical form. -/
theorem Memory.wfFrom_filter (p : Host.Cell → Bool) {lo : Nat} {m : Memory} (h : Memory.wfFrom lo m = true) :
    Memory.wfFrom lo (m.filter p) = true := by
  induction m generalizing lo with
  | nil => rfl
  | cons c m ih =>
    simp only [Memory.wfFrom, Bool.and_eq_true, decide_eq_true_eq] at h
    rw [List.filter_cons]
    split
    · simp only [Memory.wfFrom, Bool.and_eq_true, decide_eq_true_eq]
      exact ⟨h.1, h.2.1, ih h.2.2⟩
    · exact Memory.wfFrom_mono (by omega) (ih h.2.2)

/-- Equal canonical memories are equal data: they agree at every address only if they are one list. -/
theorem Memory.ext_of_wfFrom {lo : Nat} {m n : Memory} (hm : Memory.wfFrom lo m = true)
    (hn : Memory.wfFrom lo n = true) (h : ∀ a, cellRead m a = cellRead n a) : m = n := by
  induction m generalizing lo n with
  | nil =>
    cases n with
    | nil => rfl
    | cons c n =>
      simp only [Memory.wfFrom, Bool.and_eq_true, decide_eq_true_eq] at hn
      have := h c.1
      simp only [cellRead, if_true] at this
      exact absurd this.symm hn.2.1
  | cons b m ih =>
    cases n with
    | nil =>
      simp only [Memory.wfFrom, Bool.and_eq_true, decide_eq_true_eq] at hm
      have := h b.1
      simp only [cellRead, if_true] at this
      exact absurd this hm.2.1
    | cons c n =>
      simp only [Memory.wfFrom, Bool.and_eq_true, decide_eq_true_eq] at hm hn
      have hb := h b.1
      have hc := h c.1
      simp only [cellRead, if_true] at hb hc
      have key : b.1 = c.1 := by
        rcases Nat.lt_trichotomy b.1 c.1 with hlt | heq | hgt
        · rw [if_neg (by omega), cellRead_below hn.2.2 (by omega)] at hb
          exact absurd hb hm.2.1
        · exact heq
        · rw [if_neg (by omega), cellRead_below hm.2.2 (by omega)] at hc
          exact absurd hc.symm hn.2.1
      rw [if_pos key.symm] at hb
      have hbc : b = c := Prod.ext key hb
      subst hbc
      refine congrArg _ (ih hm.2.2 hn.2.2 fun a => ?_)
      by_cases ha : b.1 = a
      · rw [cellRead_below hm.2.2 (by omega), cellRead_below hn.2.2 (by omega)]
      · have := h a
        simpa [cellRead, ha] using this

/-- Canonical memories that agree at every address are equal. -/
theorem Memory.ext_of_wf {m n : Memory} (hm : m.wf = true) (hn : n.wf = true)
    (h : ∀ a, cellRead m a = cellRead n a) : m = n := Memory.ext_of_wfFrom hm hn h

/-- MEM_INIT keeps the canonical form. -/
theorem writeMemInit_wf (l : List Host.Cell) {m : Memory} (h : m.wf = true) : (writeMemInit l m).wf = true := by
  induction l generalizing m with
  | nil => exact h
  | cons c l ih =>
    refine ih ?_
    split
    · exact cellWrite_wf _ _ h
    · exact h

/-- A reset keeps the canonical form. -/
theorem resetMemory_wf {d : Devices} (h : d.mem.wf = true) : (resetMemory d).wf = true :=
  writeMemInit_wf _ (Memory.wfFrom_filter _ h)

/-- A loaded image keeps the canonical form. -/
theorem writeImage_wf (l : List Byte) (a : Nat) {m : Memory} (h : m.wf = true) : (writeImage l a m).wf = true := by
  induction l generalizing a m with
  | nil => exact h
  | cons b l ih => exact ih _ (cellWrite_wf _ _ h)

/-- Placing bytes for a fetch keeps the canonical form. -/
theorem placeBytes_wf (l : List Byte) (a : Nat) {d : Devices} (h : d.mem.wf = true) :
    (placeBytes l a d).mem.wf = true := by
  induction l generalizing a d with
  | nil => exact h
  | cons b l ih =>
    refine ih _ ?_
    unfold placeByte
    split
    · exact h
    · exact cellWrite_wf _ _ h

/-- The memory of the reset state is canonical. -/
theorem reset_memory_wf : State.reset.dev.mem.wf = true := rfl

end Sys2Proof.Machine
end

