-- ==== Sys2Proof/Laws/Bus.lean ====
section
/-! SUPPORT. What a bus write can do: it keeps the canonical form, leaves every byte of memory outside the stored bytes
as it was, changes nothing but memory where RAM is, and a read after it gives back what was stored. -/

namespace Sys2Proof.Machine

/-! ## Noting a store changes nothing else -/

@[simp] theorem notePort_params (l : List Nat) (d : Devices) : (notePort l d).params = d.params := rfl
@[simp] theorem notePort_mem (l : List Nat) (d : Devices) : (notePort l d).mem = d.mem := rfl
@[simp] theorem notePort_romSize (l : List Nat) (d : Devices) : (notePort l d).romSize = d.romSize := rfl
@[simp] theorem notePort_backup (l : List Nat) (d : Devices) : (notePort l d).backup = d.backup := rfl
@[simp] theorem notePort_run (l : List Nat) (d : Devices) : (notePort l d).run = d.run := rfl
@[simp] theorem notePort_ie (l : List Nat) (d : Devices) : (notePort l d).ie = d.ie := rfl
@[simp] theorem notePort_iflag (l : List Nat) (d : Devices) : (notePort l d).iflag = d.iflag := rfl
@[simp] theorem notePort_ime (l : List Nat) (d : Devices) : (notePort l d).ime = d.ime := rfl
@[simp] theorem notePort_timers (l : List Nat) (d : Devices) : (notePort l d).timers = d.timers := rfl
@[simp] theorem notePort_dma (l : List Nat) (d : Devices) : (notePort l d).dma = d.dma := rfl
@[simp] theorem notePort_dmaLatch (l : List Nat) (d : Devices) : (notePort l d).dmaLatch = d.dmaLatch := rfl
@[simp] theorem notePort_fifoA (l : List Nat) (d : Devices) : (notePort l d).fifoA = d.fifoA := rfl
@[simp] theorem notePort_fifoB (l : List Nat) (d : Devices) : (notePort l d).fifoB = d.fifoB := rfl
@[simp] theorem notePort_fifoDraws (l : List Nat) (d : Devices) : (notePort l d).fifoDraws = d.fifoDraws := rfl
@[simp] theorem notePort_sound (l : List Nat) (d : Devices) : (notePort l d).sound = d.sound := rfl
@[simp] theorem notePort_serial (l : List Nat) (d : Devices) : (notePort l d).serial = d.serial := rfl
@[simp] theorem notePort_keyinput (l : List Nat) (d : Devices) : (notePort l d).keyinput = d.keyinput := rfl
@[simp] theorem notePort_keycnt (l : List Nat) (d : Devices) : (notePort l d).keycnt = d.keycnt := rfl
@[simp] theorem notePort_waitcnt (l : List Nat) (d : Devices) : (notePort l d).waitcnt = d.waitcnt := rfl
@[simp] theorem notePort_postflg (l : List Nat) (d : Devices) : (notePort l d).postflg = d.postflg := rfl
@[simp] theorem notePort_memctl (l : List Nat) (d : Devices) : (notePort l d).memctl = d.memctl := rfl
@[simp] theorem notePort_ppu (l : List Nat) (d : Devices) : (notePort l d).ppu = d.ppu := rfl

/-- A keypad evaluation touches IF alone. -/
@[simp] theorem evalKeypad_mem (d : Devices) : (evalKeypad d).mem = d.mem := by
  unfold evalKeypad; split <;> rfl

/-- An I/O register write touches no byte of memory. -/
@[simp] theorem ioWrite16_mem (d : Devices) (r : IoReg) (v mask : Half) : (ioWrite16 d r v mask).mem = d.mem := by
  cases r <;> try rfl
  case keycnt => exact evalKeypad_mem _
  case sound i => unfold ioWrite16; dsimp only; split <;> rfl
  case postflgHaltcnt =>
    simp only [ioWrite16, writeHaltcnt, writePostflg]
    split <;> split <;> rfl

@[simp] theorem ioWriteAt_mem (d : Devices) (off : Nat) (v mask : Half) : (ioWriteAt d off v mask).mem = d.mem := by
  unfold ioWriteAt; split
  · rfl
  · exact ioWrite16_mem ..

@[simp] theorem ioWrite_mem (d : Devices) (w : Width) (a : Nat) (v : Word) : (ioWrite d w a v).mem = d.mem := by
  unfold ioWrite
  split
  · cases w <;> dsimp only
    · split <;> simp
    · simp
    · simp
  · split <;> rfl

@[simp] theorem eepromWrite_mem (d : Devices) (w : Width) (v : Word) : (eepromWrite d w v).mem = d.mem := by
  cases w <;> rfl

@[simp] theorem backupWrite_mem (d : Devices) (w : Width) (a : Nat) (v : Word) : (backupWrite d w a v).mem = d.mem := by
  unfold backupWrite; split <;> rfl

/-- Writes of cells keep the canonical form. -/
theorem writeCells_wf {d : Devices} (w : Width) (k : Nat) (v : Word) (h : d.mem.wf = true) :
    (writeCells d w k v).mem.wf = true := by
  cases w
  · exact cellWrite_wf _ _ h
  · exact cellWrite_wf _ _ (cellWrite_wf _ _ h)
  · exact cellWrite_wf _ _ (cellWrite_wf _ _ (cellWrite_wf _ _ (cellWrite_wf _ _ h)))

/-- A bus write keeps the canonical form. -/
theorem busWrite_wf {d : Devices} (w : Width) (a v : Word) (h : d.mem.wf = true) : (busWrite d w a v).mem.wf = true := by
  unfold busWrite
  dsimp only
  split
  case h_1 => exact h
  case h_2 => exact h
  case h_3 => exact writeCells_wf _ _ _ h
  case h_4 => exact writeCells_wf _ _ _ h
  case h_5 => simpa using h
  case h_6 => cases w <;> exact writeCells_wf _ _ _ h
  case h_7 =>
    cases w
    · dsimp only; split
      · exact h
      · exact writeCells_wf _ _ _ h
    · exact writeCells_wf _ _ _ h
    · exact writeCells_wf _ _ _ h
  case h_8 =>
    cases w
    · exact h
    · exact writeCells_wf _ _ _ h
    · exact writeCells_wf _ _ _ h
  case h_9 => split <;> simpa using h
  case h_10 => simpa using h

/-- The canonical addresses that cells of a width are written to. -/
def cellKeys (w : Width) (k : Nat) : List Nat := (List.range w.bytes).map (k + ·)

theorem writeCells_other (d : Devices) (w : Width) (k : Nat) (v : Word) {b : Nat} (h : b ∉ cellKeys w k) :
    cellRead (writeCells d w k v).mem b = cellRead d.mem b := by
  cases w <;> simp [cellKeys, Width.bytes, List.range, List.range.loop] at h <;>
    simp [writeCells, writeCell, cellRead_cellWrite_other, h]

/-- Only RAM regions have a canonical address; each is a mirror. -/
theorem ramKey_ewram {a : Nat} (h : regionOf a = .ewram) : ramKey a = some (0x02000000 + a % 0x40000) := by
  simp [ramKey, h]

theorem ramKey_iwram {a : Nat} (h : regionOf a = .iwram) : ramKey a = some (0x03000000 + a % 0x8000) := by
  simp [ramKey, h]

theorem ramKey_palette {a : Nat} (h : regionOf a = .palette) : ramKey a = some (0x05000000 + a % 0x400) := by
  simp [ramKey, h]

theorem ramKey_vram {a : Nat} (h : regionOf a = .vram) : ramKey a = some (vramKey a) := by simp [ramKey, h]

theorem ramKey_oam {a : Nat} (h : regionOf a = .oam) : ramKey a = some (0x07000000 + a % 0x400) := by
  simp [ramKey, h]

/-- Addresses of one aligned word lie in one region. -/
theorem regionOf_word {a b : Nat} (h : a / 4 = b / 4) : regionOf a = regionOf b := by
  have h1 : a / 0x1000000 = b / 0x1000000 := by omega
  have h2 : (a < 0x4000) = (b < 0x4000) := by apply propext; omega
  simp only [regionOf, h1, h2]

/-- Consecutive bytes of an aligned word have consecutive canonical addresses. -/
theorem ramKey_succ {a k : Nat} (h : ramKey a = some k) (ha : a % 4 ≠ 3) : ramKey (a + 1) = some (k + 1) := by
  have hr : regionOf (a + 1) = regionOf a := regionOf_word (by omega)
  cases h0 : regionOf a <;> rw [h0] at hr <;> simp [ramKey, h0] at h <;> simp [ramKey, hr] <;> subst h
  · omega
  · omega
  · omega
  · unfold vramKey vramOffset
    dsimp only
    split <;> split <;> omega
  · omega

theorem alignTo_mod (w : Width) (a : Nat) : alignTo w a % w.bytes = 0 := by
  cases w <;> simp [alignTo, Width.bytes] <;> omega

/-- The cells of an aligned access are those of its addresses. -/
theorem cellKeys_ramKeys {w : Width} {b key k : Nat} (hal : b % w.bytes = 0) (hk : ramKey b = some key)
    (h : k ∉ ramKeys w.bytes b) : k ∉ cellKeys w key := by
  intro hin
  apply h
  cases w <;> simp only [cellKeys, Width.bytes, List.range, List.range.loop, List.map_cons, List.map_nil,
    List.mem_cons, List.not_mem_nil, or_false, Nat.add_zero] at hin hal
  · simpa [ramKeys, Width.bytes, hk] using hin
  · have e1 := ramKey_succ hk (by omega)
    simpa [ramKeys, Width.bytes, List.range, List.range.loop, hk, e1] using hin
  · have e1 := ramKey_succ hk (by omega)
    have e2 := ramKey_succ e1 (by omega)
    have e3 := ramKey_succ e2 (by omega)
    simpa [ramKeys, Width.bytes, List.range, List.range.loop, hk, e1, e2, e3] using hin

/-- A store touches no byte of memory but its own: every other canonical address reads as before (20_memory.md R101,
R109 to R111). -/
theorem busWrite_other (d : Devices) (w : Width) (a v : Word) {k : Nat} (h : k ∉ storedKeys d w a) :
    cellRead (busWrite d w a v).mem k = cellRead d.mem k := by
  have hal := alignTo_mod w a.toNat
  unfold storedKeys at h
  unfold busWrite
  dsimp only at h ⊢
  generalize alignTo w a.toNat = b at h hal ⊢
  have hr2 : regionOf (b / 2 * 2) = regionOf b := regionOf_word (by omega)
  have h2 : b / 2 * 2 % Width.half.bytes = 0 := Nat.mul_mod_left ..
  cases h0 : regionOf b <;> rw [h0] at hr2 <;> simp only [h0] at h ⊢
  · exact writeCells_other _ _ _ _ (cellKeys_ramKeys hal (ramKey_ewram h0) (by cases w <;> exact h))
  · exact writeCells_other _ _ _ _ (cellKeys_ramKeys hal (ramKey_iwram h0) (by cases w <;> exact h))
  · rw [ioWrite_mem, notePort_mem]
  · cases w <;> dsimp only at h ⊢
    · refine writeCells_other _ _ _ _ (cellKeys_ramKeys h2 ?_ h)
      rw [ramKey_palette hr2]
      congr 1
      omega
    · exact writeCells_other _ _ _ _ (cellKeys_ramKeys hal (ramKey_palette h0) h)
    · exact writeCells_other _ _ _ _ (cellKeys_ramKeys hal (ramKey_palette h0) h)
  · cases w <;> dsimp only at h ⊢
    · split at h
      · rw [if_pos ‹_›]
      · rw [if_neg ‹_›]
        exact writeCells_other _ _ _ _ (cellKeys_ramKeys h2 (ramKey_vram hr2) h)
    · exact writeCells_other _ _ _ _ (cellKeys_ramKeys hal (ramKey_vram h0) h)
    · exact writeCells_other _ _ _ _ (cellKeys_ramKeys hal (ramKey_vram h0) h)
  · cases w <;> dsimp only at h ⊢
    · exact writeCells_other _ _ _ _ (cellKeys_ramKeys hal (ramKey_oam h0) h)
    · exact writeCells_other _ _ _ _ (cellKeys_ramKeys hal (ramKey_oam h0) h)
  · split <;> simp
  · simp

/-- Where RAM is, a bus write changes memory and nothing else of the devices. -/
theorem busWrite_ram (d : Devices) (w : Width) (a v : Word) (h : (ramKey (alignTo w a.toNat)).isSome = true) :
    busWrite d w a v = { d with mem := (busWrite d w a v).mem } := by
  unfold busWrite
  dsimp only
  unfold ramKey at h
  split <;> simp_all <;> cases w <;> first | rfl | (dsimp only; split <;> rfl)

/-- The bytes of a word put together are the word. -/
theorem wordOfBytes_byteOf (v : Word) : wordOfBytes (byteOf v 3) (byteOf v 2) (byteOf v 1) (byteOf v 0) = v := by
  apply BitVec.eq_of_toNat_eq
  simp only [wordOfBytes, byteOf, BitVec.toNat_append, BitVec.toNat_ofNat]
  have h := v.isLt
  rw [← Nat.shiftLeft_add_eq_or_of_lt (by omega), ← Nat.shiftLeft_add_eq_or_of_lt (by omega),
    ← Nat.shiftLeft_add_eq_or_of_lt (by omega)]
  simp only [Nat.shiftLeft_eq]
  omega

end Sys2Proof.Machine
end

