-- ==== Sys2Proof/Laws/State.lean ====
section
/-! SUPPORT. One lemma per field per update of the state, so that no later proof unfolds a record update. -/

namespace Sys2Proof.Machine

@[simp] theorem State.charge_regs (s : State) (n : Nat) : (s.charge n).regs = s.regs := rfl
@[simp] theorem State.charge_pc (s : State) (n : Nat) : (s.charge n).pc = s.pc := rfl
@[simp] theorem State.charge_cpsr (s : State) (n : Nat) : (s.charge n).cpsr = s.cpsr := rfl
@[simp] theorem State.charge_spsrFiq (s : State) (n : Nat) : (s.charge n).spsrFiq = s.spsrFiq := rfl
@[simp] theorem State.charge_spsrIrq (s : State) (n : Nat) : (s.charge n).spsrIrq = s.spsrIrq := rfl
@[simp] theorem State.charge_spsrSvc (s : State) (n : Nat) : (s.charge n).spsrSvc = s.spsrSvc := rfl
@[simp] theorem State.charge_spsrAbt (s : State) (n : Nat) : (s.charge n).spsrAbt = s.spsrAbt := rfl
@[simp] theorem State.charge_spsrUnd (s : State) (n : Nat) : (s.charge n).spsrUnd = s.spsrUnd := rfl
@[simp] theorem State.charge_prefetchLatch (s : State) (n : Nat) : (s.charge n).prefetchLatch = s.prefetchLatch := rfl
@[simp] theorem State.charge_biosLatch (s : State) (n : Nat) : (s.charge n).biosLatch = s.biosLatch := rfl
@[simp] theorem State.charge_intrwaitMask (s : State) (n : Nat) : (s.charge n).intrwaitMask = s.intrwaitMask := rfl
@[simp] theorem State.charge_cycleCount (s : State) (n : Nat) : (s.charge n).cycleCount = s.cycleCount := rfl
@[simp] theorem State.charge_stale (s : State) (n : Nat) : (s.charge n).stale = s.stale := rfl
@[simp] theorem State.charge_debug (s : State) (n : Nat) : (s.charge n).dbg = s.dbg := rfl
@[simp] theorem State.charge_dev (s : State) (n : Nat) : (s.charge n).dev = s.dev := rfl
@[simp] theorem State.charge_stepCycles (s : State) (n : Nat) : (s.charge n).stepCycles = s.stepCycles + n := rfl
@[simp] theorem State.charge_freeCount (s : State) (n : Nat) : (s.charge n).freeCount = s.freeCount := rfl

@[simp] theorem State.chargeCode_regs (s : State) (q : Access) : (s.chargeCode q).regs = s.regs := rfl
@[simp] theorem State.chargeCode_pc (s : State) (q : Access) : (s.chargeCode q).pc = s.pc := rfl
@[simp] theorem State.chargeCode_cpsr (s : State) (q : Access) : (s.chargeCode q).cpsr = s.cpsr := rfl
@[simp] theorem State.chargeCode_spsrFiq (s : State) (q : Access) : (s.chargeCode q).spsrFiq = s.spsrFiq := rfl
@[simp] theorem State.chargeCode_spsrIrq (s : State) (q : Access) : (s.chargeCode q).spsrIrq = s.spsrIrq := rfl
@[simp] theorem State.chargeCode_spsrSvc (s : State) (q : Access) : (s.chargeCode q).spsrSvc = s.spsrSvc := rfl
@[simp] theorem State.chargeCode_spsrAbt (s : State) (q : Access) : (s.chargeCode q).spsrAbt = s.spsrAbt := rfl
@[simp] theorem State.chargeCode_spsrUnd (s : State) (q : Access) : (s.chargeCode q).spsrUnd = s.spsrUnd := rfl
@[simp] theorem State.chargeCode_prefetchLatch (s : State) (q : Access) : (s.chargeCode q).prefetchLatch = s.prefetchLatch :=
  rfl
@[simp] theorem State.chargeCode_biosLatch (s : State) (q : Access) : (s.chargeCode q).biosLatch = s.biosLatch := rfl
@[simp] theorem State.chargeCode_intrwaitMask (s : State) (q : Access) : (s.chargeCode q).intrwaitMask = s.intrwaitMask :=
  rfl
@[simp] theorem State.chargeCode_cycleCount (s : State) (q : Access) : (s.chargeCode q).cycleCount = s.cycleCount := rfl
@[simp] theorem State.chargeCode_stale (s : State) (q : Access) : (s.chargeCode q).stale = s.stale := rfl
@[simp] theorem State.chargeCode_debug (s : State) (q : Access) : (s.chargeCode q).dbg = s.dbg := rfl
@[simp] theorem State.chargeCode_dev (s : State) (q : Access) : (s.chargeCode q).dev = s.dev := rfl
@[simp] theorem State.chargeCode_stepCycles (s : State) (q : Access) : (s.chargeCode q).stepCycles = s.stepCycles + accessCost s.dev s.codeWidth s.pc q :=
  rfl
@[simp] theorem State.chargeCode_freeCount (s : State) (q : Access) : (s.chargeCode q).freeCount = s.freeCount := rfl

@[simp] theorem State.chargeData_regs (s : State) (w : Width) (a : Word) (q : Access) : (s.chargeData w a q).regs = s.regs :=
  rfl
@[simp] theorem State.chargeData_pc (s : State) (w : Width) (a : Word) (q : Access) : (s.chargeData w a q).pc = s.pc :=
  rfl
@[simp] theorem State.chargeData_cpsr (s : State) (w : Width) (a : Word) (q : Access) : (s.chargeData w a q).cpsr = s.cpsr :=
  rfl
@[simp] theorem State.chargeData_spsrFiq (s : State) (w : Width) (a : Word) (q : Access) : (s.chargeData w a q).spsrFiq = s.spsrFiq :=
  rfl
@[simp] theorem State.chargeData_spsrIrq (s : State) (w : Width) (a : Word) (q : Access) : (s.chargeData w a q).spsrIrq = s.spsrIrq :=
  rfl
@[simp] theorem State.chargeData_spsrSvc (s : State) (w : Width) (a : Word) (q : Access) : (s.chargeData w a q).spsrSvc = s.spsrSvc :=
  rfl
@[simp] theorem State.chargeData_spsrAbt (s : State) (w : Width) (a : Word) (q : Access) : (s.chargeData w a q).spsrAbt = s.spsrAbt :=
  rfl
@[simp] theorem State.chargeData_spsrUnd (s : State) (w : Width) (a : Word) (q : Access) : (s.chargeData w a q).spsrUnd = s.spsrUnd :=
  rfl
@[simp] theorem State.chargeData_prefetchLatch (s : State) (w : Width) (a : Word) (q : Access) : (s.chargeData w a q).prefetchLatch = s.prefetchLatch :=
  rfl
@[simp] theorem State.chargeData_biosLatch (s : State) (w : Width) (a : Word) (q : Access) : (s.chargeData w a q).biosLatch = s.biosLatch :=
  rfl
@[simp] theorem State.chargeData_intrwaitMask (s : State) (w : Width) (a : Word) (q : Access) : (s.chargeData w a q).intrwaitMask = s.intrwaitMask :=
  rfl
@[simp] theorem State.chargeData_cycleCount (s : State) (w : Width) (a : Word) (q : Access) : (s.chargeData w a q).cycleCount = s.cycleCount :=
  rfl
@[simp] theorem State.chargeData_stale (s : State) (w : Width) (a : Word) (q : Access) : (s.chargeData w a q).stale = s.stale :=
  rfl
@[simp] theorem State.chargeData_debug (s : State) (w : Width) (a : Word) (q : Access) : (s.chargeData w a q).dbg = s.dbg :=
  rfl
@[simp] theorem State.chargeData_dev (s : State) (w : Width) (a : Word) (q : Access) : (s.chargeData w a q).dev = s.dev :=
  rfl
@[simp] theorem State.chargeData_stepCycles (s : State) (w : Width) (a : Word) (q : Access) : (s.chargeData w a q).stepCycles = s.stepCycles + accessCost s.dev w a q :=
  rfl
@[simp] theorem State.chargeData_freeCount (s : State) (w : Width) (a : Word) (q : Access) : (s.chargeData w a q).freeCount = s.freeCount :=
  rfl

@[simp] theorem State.chargeRefill_regs (s : State)  : (s.chargeRefill).regs = s.regs := rfl
@[simp] theorem State.chargeRefill_pc (s : State)  : (s.chargeRefill).pc = s.pc := rfl
@[simp] theorem State.chargeRefill_cpsr (s : State)  : (s.chargeRefill).cpsr = s.cpsr := rfl
@[simp] theorem State.chargeRefill_spsrFiq (s : State)  : (s.chargeRefill).spsrFiq = s.spsrFiq := rfl
@[simp] theorem State.chargeRefill_spsrIrq (s : State)  : (s.chargeRefill).spsrIrq = s.spsrIrq := rfl
@[simp] theorem State.chargeRefill_spsrSvc (s : State)  : (s.chargeRefill).spsrSvc = s.spsrSvc := rfl
@[simp] theorem State.chargeRefill_spsrAbt (s : State)  : (s.chargeRefill).spsrAbt = s.spsrAbt := rfl
@[simp] theorem State.chargeRefill_spsrUnd (s : State)  : (s.chargeRefill).spsrUnd = s.spsrUnd := rfl
@[simp] theorem State.chargeRefill_prefetchLatch (s : State)  : (s.chargeRefill).prefetchLatch = s.prefetchLatch := rfl
@[simp] theorem State.chargeRefill_biosLatch (s : State)  : (s.chargeRefill).biosLatch = s.biosLatch := rfl
@[simp] theorem State.chargeRefill_intrwaitMask (s : State)  : (s.chargeRefill).intrwaitMask = s.intrwaitMask := rfl
@[simp] theorem State.chargeRefill_cycleCount (s : State)  : (s.chargeRefill).cycleCount = s.cycleCount := rfl
@[simp] theorem State.chargeRefill_stale (s : State)  : (s.chargeRefill).stale = s.stale := rfl
@[simp] theorem State.chargeRefill_debug (s : State)  : (s.chargeRefill).dbg = s.dbg := rfl
@[simp] theorem State.chargeRefill_dev (s : State)  : (s.chargeRefill).dev = s.dev := rfl
@[simp] theorem State.chargeRefill_freeCount (s : State)  : (s.chargeRefill).freeCount = s.freeCount := rfl

@[simp] theorem State.advance_regs (s : State)  : (s.advance).regs = s.regs := rfl
@[simp] theorem State.advance_pc (s : State)  : (s.advance).pc = s.pc + s.instrBytes := rfl
@[simp] theorem State.advance_cpsr (s : State)  : (s.advance).cpsr = s.cpsr := rfl
@[simp] theorem State.advance_spsrFiq (s : State)  : (s.advance).spsrFiq = s.spsrFiq := rfl
@[simp] theorem State.advance_spsrIrq (s : State)  : (s.advance).spsrIrq = s.spsrIrq := rfl
@[simp] theorem State.advance_spsrSvc (s : State)  : (s.advance).spsrSvc = s.spsrSvc := rfl
@[simp] theorem State.advance_spsrAbt (s : State)  : (s.advance).spsrAbt = s.spsrAbt := rfl
@[simp] theorem State.advance_spsrUnd (s : State)  : (s.advance).spsrUnd = s.spsrUnd := rfl
@[simp] theorem State.advance_prefetchLatch (s : State)  : (s.advance).prefetchLatch = s.prefetchLatch := rfl
@[simp] theorem State.advance_biosLatch (s : State)  : (s.advance).biosLatch = s.biosLatch := rfl
@[simp] theorem State.advance_intrwaitMask (s : State)  : (s.advance).intrwaitMask = s.intrwaitMask := rfl
@[simp] theorem State.advance_cycleCount (s : State)  : (s.advance).cycleCount = s.cycleCount := rfl
@[simp] theorem State.advance_stale (s : State)  : (s.advance).stale = s.stale := rfl
@[simp] theorem State.advance_debug (s : State)  : (s.advance).dbg = s.dbg := rfl
@[simp] theorem State.advance_dev (s : State)  : (s.advance).dev = s.dev := rfl
@[simp] theorem State.advance_stepCycles (s : State)  : (s.advance).stepCycles = s.stepCycles := rfl
@[simp] theorem State.advance_freeCount (s : State)  : (s.advance).freeCount = s.freeCount := rfl

@[simp] theorem State.branchTo_regs (s : State) (v : Word) : (s.branchTo v).regs = s.regs := rfl
@[simp] theorem State.branchTo_pc (s : State) (v : Word) : (s.branchTo v).pc = alignPc s.cpsr.t v := rfl
@[simp] theorem State.branchTo_cpsr (s : State) (v : Word) : (s.branchTo v).cpsr = s.cpsr := rfl
@[simp] theorem State.branchTo_spsrFiq (s : State) (v : Word) : (s.branchTo v).spsrFiq = s.spsrFiq := rfl
@[simp] theorem State.branchTo_spsrIrq (s : State) (v : Word) : (s.branchTo v).spsrIrq = s.spsrIrq := rfl
@[simp] theorem State.branchTo_spsrSvc (s : State) (v : Word) : (s.branchTo v).spsrSvc = s.spsrSvc := rfl
@[simp] theorem State.branchTo_spsrAbt (s : State) (v : Word) : (s.branchTo v).spsrAbt = s.spsrAbt := rfl
@[simp] theorem State.branchTo_spsrUnd (s : State) (v : Word) : (s.branchTo v).spsrUnd = s.spsrUnd := rfl
@[simp] theorem State.branchTo_prefetchLatch (s : State) (v : Word) : (s.branchTo v).prefetchLatch = s.prefetchLatch :=
  rfl
@[simp] theorem State.branchTo_biosLatch (s : State) (v : Word) : (s.branchTo v).biosLatch = s.biosLatch := rfl
@[simp] theorem State.branchTo_intrwaitMask (s : State) (v : Word) : (s.branchTo v).intrwaitMask = s.intrwaitMask := rfl
@[simp] theorem State.branchTo_cycleCount (s : State) (v : Word) : (s.branchTo v).cycleCount = s.cycleCount := rfl
@[simp] theorem State.branchTo_stale (s : State) (v : Word) : (s.branchTo v).stale = s.stale := rfl
@[simp] theorem State.branchTo_debug (s : State) (v : Word) : (s.branchTo v).dbg = s.dbg := rfl
@[simp] theorem State.branchTo_dev (s : State) (v : Word) : (s.branchTo v).dev = s.dev := rfl
@[simp] theorem State.branchTo_freeCount (s : State) (v : Word) : (s.branchTo v).freeCount = s.freeCount := rfl

@[simp] theorem State.store_regs (s : State) (w : Width) (a v : Word) : (s.store w a v).regs = s.regs := rfl
@[simp] theorem State.store_pc (s : State) (w : Width) (a v : Word) : (s.store w a v).pc = s.pc := rfl
@[simp] theorem State.store_cpsr (s : State) (w : Width) (a v : Word) : (s.store w a v).cpsr = s.cpsr := rfl
@[simp] theorem State.store_spsrFiq (s : State) (w : Width) (a v : Word) : (s.store w a v).spsrFiq = s.spsrFiq := rfl
@[simp] theorem State.store_spsrIrq (s : State) (w : Width) (a v : Word) : (s.store w a v).spsrIrq = s.spsrIrq := rfl
@[simp] theorem State.store_spsrSvc (s : State) (w : Width) (a v : Word) : (s.store w a v).spsrSvc = s.spsrSvc := rfl
@[simp] theorem State.store_spsrAbt (s : State) (w : Width) (a v : Word) : (s.store w a v).spsrAbt = s.spsrAbt := rfl
@[simp] theorem State.store_spsrUnd (s : State) (w : Width) (a v : Word) : (s.store w a v).spsrUnd = s.spsrUnd := rfl
@[simp] theorem State.store_prefetchLatch (s : State) (w : Width) (a v : Word) : (s.store w a v).prefetchLatch = s.prefetchLatch :=
  rfl
@[simp] theorem State.store_biosLatch (s : State) (w : Width) (a v : Word) : (s.store w a v).biosLatch = s.biosLatch :=
  rfl
@[simp] theorem State.store_intrwaitMask (s : State) (w : Width) (a v : Word) : (s.store w a v).intrwaitMask = s.intrwaitMask :=
  rfl
@[simp] theorem State.store_cycleCount (s : State) (w : Width) (a v : Word) : (s.store w a v).cycleCount = s.cycleCount :=
  rfl
@[simp] theorem State.store_stale (s : State) (w : Width) (a v : Word) : (s.store w a v).stale = s.stale := rfl
@[simp] theorem State.store_debug (s : State) (w : Width) (a v : Word) : (s.store w a v).dbg = s.dbg := rfl
@[simp] theorem State.store_dev (s : State) (w : Width) (a v : Word) : (s.store w a v).dev = busWrite s.dev w a v := rfl
@[simp] theorem State.store_stepCycles (s : State) (w : Width) (a v : Word) : (s.store w a v).stepCycles = s.stepCycles :=
  rfl
@[simp] theorem State.store_freeCount (s : State) (w : Width) (a v : Word) : (s.store w a v).freeCount = s.freeCount :=
  rfl

@[simp] theorem State.setFlags_regs (s : State) (p : Psr) : (s.setFlags p).regs = s.regs := rfl
@[simp] theorem State.setFlags_pc (s : State) (p : Psr) : (s.setFlags p).pc = s.pc := rfl
@[simp] theorem State.setFlags_cpsr (s : State) (p : Psr) : (s.setFlags p).cpsr = p := rfl
@[simp] theorem State.setFlags_spsrFiq (s : State) (p : Psr) : (s.setFlags p).spsrFiq = s.spsrFiq := rfl
@[simp] theorem State.setFlags_spsrIrq (s : State) (p : Psr) : (s.setFlags p).spsrIrq = s.spsrIrq := rfl
@[simp] theorem State.setFlags_spsrSvc (s : State) (p : Psr) : (s.setFlags p).spsrSvc = s.spsrSvc := rfl
@[simp] theorem State.setFlags_spsrAbt (s : State) (p : Psr) : (s.setFlags p).spsrAbt = s.spsrAbt := rfl
@[simp] theorem State.setFlags_spsrUnd (s : State) (p : Psr) : (s.setFlags p).spsrUnd = s.spsrUnd := rfl
@[simp] theorem State.setFlags_prefetchLatch (s : State) (p : Psr) : (s.setFlags p).prefetchLatch = s.prefetchLatch :=
  rfl
@[simp] theorem State.setFlags_biosLatch (s : State) (p : Psr) : (s.setFlags p).biosLatch = s.biosLatch := rfl
@[simp] theorem State.setFlags_intrwaitMask (s : State) (p : Psr) : (s.setFlags p).intrwaitMask = s.intrwaitMask := rfl
@[simp] theorem State.setFlags_cycleCount (s : State) (p : Psr) : (s.setFlags p).cycleCount = s.cycleCount := rfl
@[simp] theorem State.setFlags_stale (s : State) (p : Psr) : (s.setFlags p).stale = s.stale := rfl
@[simp] theorem State.setFlags_debug (s : State) (p : Psr) : (s.setFlags p).dbg = s.dbg := rfl
@[simp] theorem State.setFlags_dev (s : State) (p : Psr) : (s.setFlags p).dev = s.dev := rfl
@[simp] theorem State.setFlags_stepCycles (s : State) (p : Psr) : (s.setFlags p).stepCycles = s.stepCycles := rfl
@[simp] theorem State.setFlags_freeCount (s : State) (p : Psr) : (s.setFlags p).freeCount = s.freeCount := rfl

@[simp] theorem State.setRun_regs (s : State) (r : RunState) : (s.setRun r).regs = s.regs := rfl
@[simp] theorem State.setRun_pc (s : State) (r : RunState) : (s.setRun r).pc = s.pc := rfl
@[simp] theorem State.setRun_cpsr (s : State) (r : RunState) : (s.setRun r).cpsr = s.cpsr := rfl
@[simp] theorem State.setRun_spsrFiq (s : State) (r : RunState) : (s.setRun r).spsrFiq = s.spsrFiq := rfl
@[simp] theorem State.setRun_spsrIrq (s : State) (r : RunState) : (s.setRun r).spsrIrq = s.spsrIrq := rfl
@[simp] theorem State.setRun_spsrSvc (s : State) (r : RunState) : (s.setRun r).spsrSvc = s.spsrSvc := rfl
@[simp] theorem State.setRun_spsrAbt (s : State) (r : RunState) : (s.setRun r).spsrAbt = s.spsrAbt := rfl
@[simp] theorem State.setRun_spsrUnd (s : State) (r : RunState) : (s.setRun r).spsrUnd = s.spsrUnd := rfl
@[simp] theorem State.setRun_prefetchLatch (s : State) (r : RunState) : (s.setRun r).prefetchLatch = s.prefetchLatch :=
  rfl
@[simp] theorem State.setRun_biosLatch (s : State) (r : RunState) : (s.setRun r).biosLatch = s.biosLatch := rfl
@[simp] theorem State.setRun_intrwaitMask (s : State) (r : RunState) : (s.setRun r).intrwaitMask = s.intrwaitMask := rfl
@[simp] theorem State.setRun_cycleCount (s : State) (r : RunState) : (s.setRun r).cycleCount = s.cycleCount := rfl
@[simp] theorem State.setRun_stale (s : State) (r : RunState) : (s.setRun r).stale = s.stale := rfl
@[simp] theorem State.setRun_debug (s : State) (r : RunState) : (s.setRun r).dbg = s.dbg := rfl
@[simp] theorem State.setRun_dev (s : State) (r : RunState) : (s.setRun r).dev = { s.dev with run := r } := rfl
@[simp] theorem State.setRun_stepCycles (s : State) (r : RunState) : (s.setRun r).stepCycles = s.stepCycles := rfl
@[simp] theorem State.setRun_freeCount (s : State) (r : RunState) : (s.setRun r).freeCount = s.freeCount := rfl

@[simp] theorem State.setBankedReg_pc (s : State) (m : BitVec 5) (i : Reg) (v : Word) : (s.setBankedReg m i v).pc = s.pc :=
  by unfold State.setBankedReg; split <;> rfl
@[simp] theorem State.setBankedReg_cpsr (s : State) (m : BitVec 5) (i : Reg) (v : Word) : (s.setBankedReg m i v).cpsr = s.cpsr :=
  by unfold State.setBankedReg; split <;> rfl
@[simp] theorem State.setBankedReg_spsrFiq (s : State) (m : BitVec 5) (i : Reg) (v : Word) : (s.setBankedReg m i v).spsrFiq = s.spsrFiq :=
  by unfold State.setBankedReg; split <;> rfl
@[simp] theorem State.setBankedReg_spsrIrq (s : State) (m : BitVec 5) (i : Reg) (v : Word) : (s.setBankedReg m i v).spsrIrq = s.spsrIrq :=
  by unfold State.setBankedReg; split <;> rfl
@[simp] theorem State.setBankedReg_spsrSvc (s : State) (m : BitVec 5) (i : Reg) (v : Word) : (s.setBankedReg m i v).spsrSvc = s.spsrSvc :=
  by unfold State.setBankedReg; split <;> rfl
@[simp] theorem State.setBankedReg_spsrAbt (s : State) (m : BitVec 5) (i : Reg) (v : Word) : (s.setBankedReg m i v).spsrAbt = s.spsrAbt :=
  by unfold State.setBankedReg; split <;> rfl
@[simp] theorem State.setBankedReg_spsrUnd (s : State) (m : BitVec 5) (i : Reg) (v : Word) : (s.setBankedReg m i v).spsrUnd = s.spsrUnd :=
  by unfold State.setBankedReg; split <;> rfl
@[simp] theorem State.setBankedReg_prefetchLatch (s : State) (m : BitVec 5) (i : Reg) (v : Word) : (s.setBankedReg m i v).prefetchLatch = s.prefetchLatch :=
  by unfold State.setBankedReg; split <;> rfl
@[simp] theorem State.setBankedReg_biosLatch (s : State) (m : BitVec 5) (i : Reg) (v : Word) : (s.setBankedReg m i v).biosLatch = s.biosLatch :=
  by unfold State.setBankedReg; split <;> rfl
@[simp] theorem State.setBankedReg_intrwaitMask (s : State) (m : BitVec 5) (i : Reg) (v : Word) : (s.setBankedReg m i v).intrwaitMask = s.intrwaitMask :=
  by unfold State.setBankedReg; split <;> rfl
@[simp] theorem State.setBankedReg_cycleCount (s : State) (m : BitVec 5) (i : Reg) (v : Word) : (s.setBankedReg m i v).cycleCount = s.cycleCount :=
  by unfold State.setBankedReg; split <;> rfl
@[simp] theorem State.setBankedReg_stale (s : State) (m : BitVec 5) (i : Reg) (v : Word) : (s.setBankedReg m i v).stale = s.stale :=
  by unfold State.setBankedReg; split <;> rfl
@[simp] theorem State.setBankedReg_debug (s : State) (m : BitVec 5) (i : Reg) (v : Word) : (s.setBankedReg m i v).dbg = s.dbg :=
  by unfold State.setBankedReg; split <;> rfl
@[simp] theorem State.setBankedReg_dev (s : State) (m : BitVec 5) (i : Reg) (v : Word) : (s.setBankedReg m i v).dev = s.dev :=
  by unfold State.setBankedReg; split <;> rfl
@[simp] theorem State.setBankedReg_stepCycles (s : State) (m : BitVec 5) (i : Reg) (v : Word) : (s.setBankedReg m i v).stepCycles = s.stepCycles :=
  by unfold State.setBankedReg; split <;> rfl
@[simp] theorem State.setBankedReg_freeCount (s : State) (m : BitVec 5) (i : Reg) (v : Word) : (s.setBankedReg m i v).freeCount = s.freeCount :=
  by unfold State.setBankedReg; split <;> rfl

@[simp] theorem State.setReg_pc (s : State) (i : Reg) (v : Word) : (s.setReg i v).pc = s.pc :=
  State.setBankedReg_pc s _ i v
@[simp] theorem State.setReg_cpsr (s : State) (i : Reg) (v : Word) : (s.setReg i v).cpsr = s.cpsr :=
  State.setBankedReg_cpsr s _ i v
@[simp] theorem State.setReg_spsrFiq (s : State) (i : Reg) (v : Word) : (s.setReg i v).spsrFiq = s.spsrFiq :=
  State.setBankedReg_spsrFiq s _ i v
@[simp] theorem State.setReg_spsrIrq (s : State) (i : Reg) (v : Word) : (s.setReg i v).spsrIrq = s.spsrIrq :=
  State.setBankedReg_spsrIrq s _ i v
@[simp] theorem State.setReg_spsrSvc (s : State) (i : Reg) (v : Word) : (s.setReg i v).spsrSvc = s.spsrSvc :=
  State.setBankedReg_spsrSvc s _ i v
@[simp] theorem State.setReg_spsrAbt (s : State) (i : Reg) (v : Word) : (s.setReg i v).spsrAbt = s.spsrAbt :=
  State.setBankedReg_spsrAbt s _ i v
@[simp] theorem State.setReg_spsrUnd (s : State) (i : Reg) (v : Word) : (s.setReg i v).spsrUnd = s.spsrUnd :=
  State.setBankedReg_spsrUnd s _ i v
@[simp] theorem State.setReg_prefetchLatch (s : State) (i : Reg) (v : Word) : (s.setReg i v).prefetchLatch = s.prefetchLatch :=
  State.setBankedReg_prefetchLatch s _ i v
@[simp] theorem State.setReg_biosLatch (s : State) (i : Reg) (v : Word) : (s.setReg i v).biosLatch = s.biosLatch :=
  State.setBankedReg_biosLatch s _ i v
@[simp] theorem State.setReg_intrwaitMask (s : State) (i : Reg) (v : Word) : (s.setReg i v).intrwaitMask = s.intrwaitMask :=
  State.setBankedReg_intrwaitMask s _ i v
@[simp] theorem State.setReg_cycleCount (s : State) (i : Reg) (v : Word) : (s.setReg i v).cycleCount = s.cycleCount :=
  State.setBankedReg_cycleCount s _ i v
@[simp] theorem State.setReg_stale (s : State) (i : Reg) (v : Word) : (s.setReg i v).stale = s.stale :=
  State.setBankedReg_stale s _ i v
@[simp] theorem State.setReg_debug (s : State) (i : Reg) (v : Word) : (s.setReg i v).dbg = s.dbg :=
  State.setBankedReg_debug s _ i v
@[simp] theorem State.setReg_dev (s : State) (i : Reg) (v : Word) : (s.setReg i v).dev = s.dev :=
  State.setBankedReg_dev s _ i v
@[simp] theorem State.setReg_stepCycles (s : State) (i : Reg) (v : Word) : (s.setReg i v).stepCycles = s.stepCycles :=
  State.setBankedReg_stepCycles s _ i v
@[simp] theorem State.setReg_freeCount (s : State) (i : Reg) (v : Word) : (s.setReg i v).freeCount = s.freeCount :=
  State.setBankedReg_freeCount s _ i v

@[simp] theorem State.setSpsr_regs (s : State) (m : BitVec 5) (p : Psr) : (s.setSpsr m p).regs = s.regs :=
  by unfold State.setSpsr; repeat (first | rfl | split)
@[simp] theorem State.setSpsr_pc (s : State) (m : BitVec 5) (p : Psr) : (s.setSpsr m p).pc = s.pc :=
  by unfold State.setSpsr; repeat (first | rfl | split)
@[simp] theorem State.setSpsr_cpsr (s : State) (m : BitVec 5) (p : Psr) : (s.setSpsr m p).cpsr = s.cpsr :=
  by unfold State.setSpsr; repeat (first | rfl | split)
@[simp] theorem State.setSpsr_prefetchLatch (s : State) (m : BitVec 5) (p : Psr) : (s.setSpsr m p).prefetchLatch = s.prefetchLatch :=
  by unfold State.setSpsr; repeat (first | rfl | split)
@[simp] theorem State.setSpsr_biosLatch (s : State) (m : BitVec 5) (p : Psr) : (s.setSpsr m p).biosLatch = s.biosLatch :=
  by unfold State.setSpsr; repeat (first | rfl | split)
@[simp] theorem State.setSpsr_intrwaitMask (s : State) (m : BitVec 5) (p : Psr) : (s.setSpsr m p).intrwaitMask = s.intrwaitMask :=
  by unfold State.setSpsr; repeat (first | rfl | split)
@[simp] theorem State.setSpsr_cycleCount (s : State) (m : BitVec 5) (p : Psr) : (s.setSpsr m p).cycleCount = s.cycleCount :=
  by unfold State.setSpsr; repeat (first | rfl | split)
@[simp] theorem State.setSpsr_stale (s : State) (m : BitVec 5) (p : Psr) : (s.setSpsr m p).stale = s.stale :=
  by unfold State.setSpsr; repeat (first | rfl | split)
@[simp] theorem State.setSpsr_debug (s : State) (m : BitVec 5) (p : Psr) : (s.setSpsr m p).dbg = s.dbg :=
  by unfold State.setSpsr; repeat (first | rfl | split)
@[simp] theorem State.setSpsr_dev (s : State) (m : BitVec 5) (p : Psr) : (s.setSpsr m p).dev = s.dev :=
  by unfold State.setSpsr; repeat (first | rfl | split)
@[simp] theorem State.setSpsr_stepCycles (s : State) (m : BitVec 5) (p : Psr) : (s.setSpsr m p).stepCycles = s.stepCycles :=
  by unfold State.setSpsr; repeat (first | rfl | split)
@[simp] theorem State.setSpsr_freeCount (s : State) (m : BitVec 5) (p : Psr) : (s.setSpsr m p).freeCount = s.freeCount :=
  by unfold State.setSpsr; repeat (first | rfl | split)

/-- A write of r0 to r14 changes one physical register. -/
theorem State.setBankedReg_regs (s : State) (m : BitVec 5) (i : Reg) (v : Word) (h : i ≠ 15) :
    (s.setBankedReg m i v).regs = s.regs.set (bankIndex m i) v := by
  simp [State.setBankedReg, h]

/-- A write of name r15 is left to the branch. -/
@[simp] theorem State.setBankedReg_fifteen (s : State) (m : BitVec 5) (v : Word) : s.setBankedReg m 15 v = s := by
  simp [State.setBankedReg]

/-- A write of r0 to r14 of the current mode changes one physical register. -/
theorem State.setReg_regs (s : State) (i : Reg) (v : Word) (h : i ≠ 15) :
    (s.setReg i v).regs = s.regs.set (bankIndex s.cpsr.m i) v := State.setBankedReg_regs s _ i v h

@[simp] theorem State.setReg_fifteen (s : State) (v : Word) : s.setReg 15 v = s := State.setBankedReg_fifteen s _ v

/-- A written register reads back, in its bank. -/
theorem State.bankedReg_setBankedReg_same (s : State) (m : BitVec 5) (i : Reg) (v : Word) (h : i ≠ 15) :
    (s.setBankedReg m i v).bankedReg m i = v := by
  simp [State.bankedReg, State.setBankedReg_regs s m i v h]

/-- A physical register other than the one written holds what it held. -/
theorem State.setBankedReg_regs_other (s : State) (m : BitVec 5) (i : Reg) (v : Word) (k : Fin 30)
    (h : k ≠ bankIndex m i) : (s.setBankedReg m i v).regs[k] = s.regs[k] := by
  by_cases hi : i = 15
  · subst hi; simp
  · simp only [State.setBankedReg_regs s m i v hi]
    exact Vector.getElem_set_ne _ _ (fun e => h (Fin.ext e.symm))

/-- A branch charges the refill at its target (70_reset_and_hazards.md R882). -/
theorem State.branchTo_stepCycles (s : State) (v : Word) :
    (s.branchTo v).stepCycles = s.stepCycles + (accessCost s.dev s.codeWidth (alignPc s.cpsr.t v) .nonseq +
      accessCost s.dev s.codeWidth (alignPc s.cpsr.t v + s.instrBytes) .seq) := rfl

/-- The SPSR written is the SPSR read, in a mode that has one. -/
theorem State.spsrOf_setSpsr (s : State) (m : BitVec 5) (p q : Psr) (h : s.spsrOf m = some q) :
    (s.setSpsr m p).spsrOf m = some p := by
  unfold State.spsrOf at h
  unfold State.setSpsr State.spsrOf
  repeat' split at h
  all_goals simp_all

end Sys2Proof.Machine
end

