-- ==== Sys2Proof/Laws/Ops.lean ====
section
/-! SUPPORT. One lemma for each shared operation that says everything it can do, in the words of Sys2Proof.Safety: proofs
about an instruction cite these and unfold none of the operations. -/

namespace Sys2Proof.Machine

/-! ## Results -/

@[simp] theorem andThen_next (s : State) (f : State → Result) : andThen (.next s) f = f s := rfl
@[simp] theorem andThen_fault (r : Fault) (f : State → Result) : andThen (.fault r) f = .fault r := rfl
@[simp] theorem andThen_refused (r : Refusal) (f : State → Result) : andThen (.refused r) f = .refused r := rfl

theorem andThen_eq_next {o : Result} {f : State → Result} {t : State} (h : andThen o f = .next t) :
    ∃ s, o = .next s ∧ f s = .next t := by
  cases o with
  | next s => exact ⟨s, rfl, h⟩
  | fault r => simp at h
  | refused r => simp at h

theorem whenCond_passed {c : Cond} {s : State} (h : condPassed c s.cpsr = true) (f : State → Result) :
    whenCond c s f = f s := by simp [whenCond, h]

theorem whenCond_failed {c : Cond} {s : State} (h : condPassed c s.cpsr = false) (f : State → Result) :
    whenCond c s f = .next (s.goes (s.pc + s.instrBytes) s.sc) := by
  simp only [whenCond, h]; rfl

/-- A conditional meaning that goes on either skipped or ran. -/
theorem whenCond_eq_next {c : Cond} {s t : State} {f : State → Result} (h : whenCond c s f = .next t) :
    (condPassed c s.cpsr = false ∧ t = s.goes (s.pc + s.instrBytes) s.sc) ∨
      (condPassed c s.cpsr = true ∧ f s = .next t) := by
  cases hc : condPassed c s.cpsr with
  | false => rw [whenCond_failed hc] at h; cases h; exact .inl ⟨rfl, rfl⟩
  | true => rw [whenCond_passed hc] at h; exact .inr ⟨rfl, h⟩

/-! ## Going on -/

theorem advance_goes (s : State) : s.advance = s.goes (s.pc + s.instrBytes) 0 := rfl
theorem skip_goes (s : State) : s.skip = s.goes (s.pc + s.instrBytes) s.sc := rfl
theorem branchTo_goes (s : State) (v : Word) :
    s.branchTo v = s.goes (alignPc s.cpsr.t v) (s.refillAt (alignPc s.cpsr.t v)) := rfl
theorem exchangeTo_goes (s : State) (v : Word) :
    s.exchangeTo v = (s.setFlags { s.cpsr with t := v.getLsbD 0 }).branchTo v := rfl
theorem charge_charge (s : State) (a b : Nat) : (s.charge a).charge b = s.charge (a + b) := by
  simp [State.charge, Nat.add_assoc]
theorem goes_charge (s : State) (pc : Word) (a b : Nat) : (s.charge a).goes pc b = s.goes pc (a + b) := by
  simp [State.charge, State.goes, Nat.add_assoc]
theorem setReg_withReg (s : State) (i : Reg) (v : Word) : s.setReg i v = s.withReg s.cpsr.m i v := rfl
theorem setBankedReg_withReg (s : State) (m : BitVec 5) (i : Reg) (v : Word) :
    s.setBankedReg m i v = s.withReg m i v := rfl
@[simp] theorem withReg_pc_name (s : State) (m : BitVec 5) (v : Word) : s.withReg m 15 v = s := rfl

/-- A write of a result: a branch for r15, else the register and the next instruction. -/
theorem writeResult_eq (s : State) (rd : Reg) (v : Word) :
    s.writeResult rd v =
      if rd = 15 then s.goes (alignPc s.cpsr.t v) (s.refillAt (alignPc s.cpsr.t v))
      else (s.withReg s.cpsr.m rd v).goes (s.pc + s.instrBytes) 0 := by
  unfold State.writeResult
  split
  · rfl
  · simp only [setReg_withReg, advance_goes, State.withReg]
    split <;> rfl

/-! ## Status words and exceptions -/

/-- A PSR restore: refused for an illegal saved mode, else the SPSR of a mode that has one, else nothing. -/
theorem psrRestore_eq (s : State) :
    s.psrRestore =
      match s.spsrOf s.cpsr.m with
      | none => .next s
      | some p => if legalMode p.m then .next { s with cpsr := p } else .refused .invalidMode := rfl

/-- The exception entry, whatever the mode. -/
theorem takeException_entered (s : State) (m : BitVec 5) (v l : Word) :
    (s.takeException m v l) = enteredException s m v l 0 := by
  unfold State.takeException enteredException State.setSpsr State.withReg State.setBankedReg
  simp only [show ((14 : Reg) = 15) = False from by decide, if_false]
  (repeat' split) <;> rfl

theorem entered_charge (s : State) (m : BitVec 5) (v l : Word) (a b : Nat) :
    (enteredException s m v l a).charge b = enteredException s m v l (a + b) := by
  simp [enteredException, State.charge, Nat.add_assoc]

theorem charge_entered (s : State) (m : BitVec 5) (v l : Word) (a b : Nat) :
    enteredException (s.charge a) m v l b = enteredException s m v l (a + b) := by
  unfold enteredException State.setSpsr State.withReg State.charge
  simp only [show ((14 : Reg) = 15) = False from by decide, if_false]
  (repeat' split) <;> simp [Nat.add_assoc]

/-- The trap at a vector below 0x4000: refused with the stub BIOS, else the entry at Sc + 2. -/
theorem trap_eq (s : State) (m : BitVec 5) (v : Word) (hv : v.toNat < 0x3FF0) :
    s.trap m v =
      match s.dev.params.biosKind with
      | .stub => .refused .trapWithStubBios
      | .supplied => .next (enteredException s m v (s.pc + s.instrBytes) (s.sc + 2)) := by
  unfold State.trap
  split <;> rename_i hk <;> simp only [hk]
  simp only [takeException_entered]
  have h1 : regionOf (alignTo .word v.toNat) = .bios := by
    have : v.toNat / 4 * 4 < 0x4000 := by omega
    simp only [alignTo, Width.bytes, regionOf]
    have h0 : v.toNat / 4 * 4 / 0x1000000 = 0 := by omega
    simp only [h0]; simp [this]
  have h2 : regionOf (alignTo .word (v + 4).toNat) = .bios := by
    have e : (v + 4).toNat = v.toNat + 4 := by rw [BitVec.toNat_add]; simp; omega
    have : (v.toNat + 4) / 4 * 4 < 0x4000 := by omega
    rw [e]; simp only [alignTo, Width.bytes, regionOf]
    have h0 : (v.toNat + 4) / 4 * 4 / 0x1000000 = 0 := by omega
    simp only [h0, this, if_true]
  have c1 : ∀ d q, accessCost d .word v q = 1 := by intro d q; simp only [accessCost, h1]
  have c2 : ∀ d q, accessCost d .word (v + 4) q = 1 := by intro d q; simp only [accessCost, h2]
  have hr : (enteredException (s.chargeCode .seq) m v ((s.chargeCode .seq).pc + (s.chargeCode .seq).instrBytes) 0).chargeRefill
      = (enteredException (s.chargeCode .seq) m v (s.pc + s.instrBytes) 0).charge 2 := by
    show State.charge _ _ = State.charge _ _
    have : ∀ t : State, t.cpsr.t = false → t.pc = v →
        accessCost t.dev t.codeWidth t.pc .nonseq + accessCost t.dev t.codeWidth (t.pc + t.instrBytes) .seq = 2 := by
      intro t ht hp
      have hw : t.codeWidth = .word := by simp [State.codeWidth, ht]
      have hi : t.instrBytes = 4 := by simp [State.instrBytes, ht]
      rw [hw, hi, hp, c1, c2]
    rw [this _ rfl rfl]; rfl
  rw [hr, entered_charge]
  show Host.Outcome.next (enteredException (s.charge s.sc) m v (s.pc + s.instrBytes) 2) = _
  rw [charge_entered]

/-- An undefined encoding: the next instruction at Sc, or the trap. -/
theorem undefinedInstr_eq (s : State) :
    s.undefinedInstr =
      match s.dev.params.undefPolicy with
      | .nop => .next (s.goes (s.pc + s.instrBytes) s.sc)
      | .trap => s.trap modeUnd 0x04 := rfl

/-! ## Data processing -/

/-- A data-processing write of a register other than r15. -/
theorem dpWrite_register {rd : Reg} (h : rd ≠ 15) (op : AluOp) (sets : Bool) (a : Word) (b : ShiftOut) (s : State) :
    dpWrite op sets rd a b s =
      .next { (s.withReg s.cpsr.m rd (aluResult op a b.value s.cpsr.c)).goes (s.pc + s.instrBytes) 0 with
        cpsr := if sets then aluFlags op a b.value b.carry s.cpsr else s.cpsr } := by
  have ht : (aluFlags op a b.value b.carry s.cpsr).t = s.cpsr.t := by cases op <;> rfl
  cases sets <;>
    simp [dpWrite, h, State.setReg, State.setBankedReg, State.withReg, State.goes, State.advance, State.setFlags,
      State.instrBytes, ht]

/-- A data-processing write of r15. -/
theorem dpWrite_pc (op : AluOp) (sets : Bool) (a : Word) (b : ShiftOut) (s : State) :
    dpWrite op sets 15 a b s =
      if sets then andThen s.psrRestore fun t => .next (t.branchTo (aluResult op a b.value s.cpsr.c))
      else .next (s.branchTo (aluResult op a b.value s.cpsr.c)) := rfl

/-- A test. -/
theorem dpTest_eq (op : AluOp) (a : Word) (b : ShiftOut) (s : State) :
    dpTest op a b s =
      .next { s.goes (s.pc + s.instrBytes) 0 with cpsr := aluFlags op a b.value b.carry s.cpsr } := by
  have ht : (aluFlags op a b.value b.carry s.cpsr).t = s.cpsr.t := by cases op <;> rfl
  simp [dpTest, State.goes, State.advance, State.setFlags, State.instrBytes, ht]

/-! ## Single transfers -/

theorem writeBase_applyBase (o : AddrOut) (s : State) : writeBase o s = o.applyBase s := by
  unfold writeBase AddrOut.applyBase; split <;> simp_all [setReg_withReg]

theorem finishBase_eq (o : AddrOut) (s : State) :
    finishBase o s =
      match o.nextPc with
      | some x => s.branchTo x
      | none => s.advance := by
  unfold finishBase AddrOut.nextPc
  cases o.wback <;> by_cases h : o.base = 15 <;> simp [h]

/-- A load of a value: the base first, then the register, or a branch. -/
theorem loadFinish_eq (o : AddrOut) (rd : Reg) (v : Word) (s : State) :
    loadFinish o rd v s =
      .next (if rd = 15 then (o.applyBase s).branchTo v
        else match o.nextPc with
          | some x => ((o.applyBase s).setReg rd v).branchTo x
          | none => ((o.applyBase s).setReg rd v).advance) := by
  unfold loadFinish
  simp only [writeBase_applyBase, finishBase_eq]
  split <;> rfl

theorem chargeLoad_eq (w : Width) (a : Word) (s : State) : chargeLoad w a s = s.charge (s.sc + s.nd w a + 1) := by
  show State.charge (State.charge (State.charge s _) _) 1 = _
  rw [charge_charge, charge_charge]; rfl

theorem chargeStore_eq (w : Width) (a : Word) (s : State) : chargeStore w a s = s.charge (s.nc + s.nd w a) := by
  show State.charge (State.charge s _) _ = _
  rw [charge_charge]; rfl

theorem chargeSwap_eq (w : Width) (a : Word) (s : State) :
    chargeSwap w a s = s.charge (s.sc + s.nd w a + s.nd w a + 1) := by
  show State.charge (State.charge (State.charge (State.charge s _) _) _) 1 = _
  rw [charge_charge, charge_charge, charge_charge]
  exact congrArg s.charge (by simp only [State.sc, State.nd, Nat.add_assoc]; rfl)

/-- A store of a register: the bus write, the base, and where to go on. -/
theorem storeReg_eq (w : Width) (o : AddrOut) (rd : Reg) (s : State) :
    storeReg w o rd s =
      let u := o.applyBase ((chargeStore w o.addr s).store w o.addr (s.readRegFar rd))
      .next (match o.nextPc with
        | some x => u.branchTo x
        | none => u.advance) := by
  simp only [storeReg, writeBase_applyBase, finishBase_eq]

theorem applyBase_pc (o : AddrOut) (s : State) : (o.applyBase s).pc = s.pc := by
  unfold AddrOut.applyBase State.withReg; split <;> (try split) <;> rfl
theorem applyBase_cpsr (o : AddrOut) (s : State) : (o.applyBase s).cpsr = s.cpsr := by
  unfold AddrOut.applyBase State.withReg; split <;> (try split) <;> rfl
theorem applyBase_dev (o : AddrOut) (s : State) : (o.applyBase s).dev = s.dev := by
  unfold AddrOut.applyBase State.withReg; split <;> (try split) <;> rfl
theorem applyBase_charge (o : AddrOut) (s : State) (n : Nat) : o.applyBase (s.charge n) = (o.applyBase s).charge n := by
  unfold AddrOut.applyBase State.withReg
  cases o.wback with
  | none => rfl
  | some v => dsimp only [State.charge]; split <;> rfl
theorem withReg_charge (s : State) (m : BitVec 5) (i : Reg) (v : Word) (n : Nat) :
    (s.charge n).withReg m i v = (s.withReg m i v).charge n := by
  unfold State.withReg State.charge; split <;> rfl

@[simp] theorem withReg_cpsr (s : State) (m : BitVec 5) (i : Reg) (v : Word) : (s.withReg m i v).cpsr = s.cpsr := by
  unfold State.withReg; split <;> rfl
@[simp] theorem withReg_pc (s : State) (m : BitVec 5) (i : Reg) (v : Word) : (s.withReg m i v).pc = s.pc := by
  unfold State.withReg; split <;> rfl
@[simp] theorem withReg_dev (s : State) (m : BitVec 5) (i : Reg) (v : Word) : (s.withReg m i v).dev = s.dev := by
  unfold State.withReg; split <;> rfl
@[simp] theorem withReg_stepCycles (s : State) (m : BitVec 5) (i : Reg) (v : Word) :
    (s.withReg m i v).stepCycles = s.stepCycles := by
  unfold State.withReg; split <;> rfl
theorem withReg_regs (s : State) (m : BitVec 5) (i : Reg) (v : Word) (x : Fin 30) :
    (s.withReg m i v).regs[x] = if i ≠ 15 ∧ bankIndex m i = x then v else s.regs[x] := by
  unfold State.withReg
  by_cases h : i = 15
  · simp [h]
  · by_cases hx : bankIndex m i = x
    · subst hx; simp [h]
    · have : (bankIndex m i).val ≠ x.val := fun e => hx (Fin.ext e)
      simp [h, hx, this]

/-! ## Services -/

/-- The return of a service. -/
theorem svcReturn_eq (ret : Word) (s : State) :
    svcReturn ret s = .next ({ s with biosLatch := 0xE3A02004 }.goes ret (s.refillAt ret)) := rfl

theorem hleEnter_eq (ret : Word) (s : State) :
    hleEnter ret s = { (s.charge s.sc).withReg modeSvc 14 ret with spsrSvc := s.cpsr } := rfl

/-! ## The devices' loops -/

/-- A loop that comes to its answer in j rounds. -/
inductive Ends {α β : Type} (f : α → Except Fault (Round α β)) : Nat → α → β → Prop where
  | done {a b} (h : f a = .ok (.done b)) : Ends f 1 a b
  | more {a a1 b j} (h : f a = .ok (.more a1)) (r : Ends f j a1 b) : Ends f (j + 1) a b

/-- Two to the k rounds bring a loop to its answer if that many suffice, and else that much nearer to it. -/
theorem rounds_ends {α β : Type} (f : α → Except Fault (Round α β)) (k : Nat) :
    ∀ {j a b}, Ends f j a b →
      (j ≤ 2 ^ k ∧ rounds f k a = .ok (.done b)) ∨
      (2 ^ k < j ∧ ∃ a1, rounds f k a = .ok (.more a1) ∧ Ends f (j - 2 ^ k) a1 b) := by
  induction k with
  | zero =>
    intro j a b h
    cases h with
    | done h => exact .inl ⟨Nat.le_refl _, h⟩
    | @more _ _ _ i h r =>
      have : 1 ≤ i := by cases r <;> omega
      exact .inr ⟨by omega, _, h, by simpa using r⟩
  | succ k ih =>
    intro j a b h
    have h2 : 2 ^ (k + 1) = 2 ^ k + 2 ^ k := by omega
    unfold rounds
    rcases ih h with ⟨hj, e⟩ | ⟨hj, a1, e, r⟩
    · exact .inl ⟨by omega, by rw [e]⟩
    · rw [e]
      rcases ih r with ⟨hj1, e1⟩ | ⟨hj1, a2, e1, r1⟩
      · exact .inl ⟨by omega, e1⟩
      · exact .inr ⟨by omega, a2, e1, by rw [h2, ← Nat.sub_sub]; exact r1⟩

/-- A loop that ends within 2 ^ (k + n) - 2 ^ k rounds is answered: only one that does not is given up. -/
theorem untilDone_ends {α β : Type} (stuck : Fault) (f : α → Except Fault (Round α β)) (n : Nat) :
    ∀ {k j a b}, Ends f j a b → j + 2 ^ k ≤ 2 ^ (k + n) → untilDone stuck f n k a = .ok b := by
  induction n with
  | zero =>
    intro k j a b h hj
    have : 1 ≤ j := by cases h <;> omega
    simp only [Nat.add_zero] at hj
    omega
  | succ n ih =>
    intro k j a b h hj
    unfold untilDone
    rcases rounds_ends f k h with ⟨_, e⟩ | ⟨_, a1, e, r⟩
    · rw [e]
    · rw [e]
      refine ih r ?_
      have h1 : k + 1 + n = k + (n + 1) := by omega
      have h2 : 2 ^ (k + 1) = 2 ^ k + 2 ^ k := by omega
      rw [h1]
      omega

/-- What each round keeps, a loop's rounds keep. -/
theorem rounds_keeps {α β : Type} {f : α → Except Fault (Round α β)} {P : α → Prop} {Q : β → Prop}
    (hm : ∀ a a1, P a → f a = .ok (.more a1) → P a1) (hd : ∀ a b, P a → f a = .ok (.done b) → Q b) (k : Nat) :
    ∀ {a}, P a → (∀ a1, rounds f k a = .ok (.more a1) → P a1) ∧ (∀ b, rounds f k a = .ok (.done b) → Q b) := by
  induction k with
  | zero => intro a h; exact ⟨fun a1 e => hm a a1 h e, fun b e => hd a b h e⟩
  | succ k ih =>
    intro a h
    unfold rounds
    obtain ⟨h1, h2⟩ := ih h
    match e0 : rounds f k a with
    | .error r => exact ⟨fun _ e => (nomatch e), fun _ e => (nomatch e)⟩
    | .ok (.done b0) => exact ⟨fun _ e => (nomatch e), fun b e => by cases e; exact h2 b0 e0⟩
    | .ok (.more a1) => exact ih (h1 a1 e0)

/-- What each round keeps, the answer of a loop has. -/
theorem untilDone_keeps {α β : Type} {stuck : Fault} {f : α → Except Fault (Round α β)} {P : α → Prop} {Q : β → Prop}
    (hm : ∀ a a1, P a → f a = .ok (.more a1) → P a1) (hd : ∀ a b, P a → f a = .ok (.done b) → Q b) (n : Nat) :
    ∀ {k a b}, P a → untilDone stuck f n k a = .ok b → Q b := by
  induction n with
  | zero => intro k a b _ e; exact nomatch e
  | succ n ih =>
    intro k a b h e
    unfold untilDone at e
    obtain ⟨h1, h2⟩ := rounds_keeps hm hd k h
    match e0 : rounds f k a with
    | .error r => rw [e0] at e; exact nomatch e
    | .ok (.done b0) => rw [e0] at e; cases e; exact h2 _ e0
    | .ok (.more a1) => rw [e0] at e; exact ih (h1 a1 e0) e

/-- What each transfer keeps, the whole chain keeps. -/
theorem serveDma_keeps {P : Devices → Prop} (hP : ∀ d n, P d → P (dmaTransfer d n).1) {d : Devices}
    {t : Devices × Nat} (hd : P d) (h : serveDma d = .ok t) : P t.1 := by
  refine untilDone_keeps (P := fun a => P a.1) (Q := fun a => P a.1) ?_ ?_ _ hd h
  · intro a a1 ha e
    unfold serveRound at e
    split at e <;> cases e
    exact hP _ _ ha
  · intro a b ha e
    unfold serveRound at e
    split at e <;> cases e
    exact ha

/-- What each unit keeps, the units of a transfer keep. -/
theorem dmaLoop_keeps {P : Devices → Prop} (r : DmaRun) (hP : ∀ q d, P d → P (dmaUnit r q d).1) :
    ∀ k q d cycles, P d → P (dmaLoop r k q d cycles).1 := by
  intro k
  induction k with
  | zero => intro q d cycles hd; exact hd
  | succ k ih => intro q d cycles hd; exact ih _ _ _ (hP q d hd)

/-- What each device cycle keeps, an advance keeps. -/
theorem advanceLoop_keeps {P : Devices → Prop} (hP : ∀ d t, P d → deviceCycle d = .ok t → P t.1) {c : Nat}
    {d : Devices} {t : Devices × Nat} (hd : P d) (h : advanceLoop c d = .ok t) : P t.1 := by
  refine untilDone_keeps (P := fun a => P a.2.1) (Q := fun a => P a.1) ?_ ?_ _ hd h
  · intro a a1 ha e
    unfold advanceRound at e
    split at e
    · cases e
    · split at e
      · cases e
      · next u hu => cases e; exact hP _ u ha hu
  · intro a b ha e
    unfold advanceRound at e
    split at e
    · cases e; exact ha
    · split at e <;> cases e

/-- Passing the loops' answer on changes the devices and the cycles alone. -/
theorem afterTimed_eq_next {s t : State} {r : Timed} (h : s.afterTimed r = .next t) :
    ∃ d n, r = .ok (d, n) ∧ t = { s with dev := d, stepCycles := s.stepCycles + n } := by
  unfold State.afterTimed at h
  split at h <;> cases h
  exact ⟨_, _, rfl, rfl⟩

/-- An advance of a state changes its devices and its cycles alone. -/
theorem advanceDevices_eq_next {c : Nat} {s t : State} (h : advanceDevices c s = .next t) :
    ∃ d n, advanceLoop c s.dev = .ok (d, n) ∧ t = { s with dev := d, stepCycles := s.stepCycles + n } :=
  afterTimed_eq_next h

/-- The immediate transfers of a step change its devices and its cycles alone. -/
theorem runImmediateDma_eq_next {s t : State} (h : runImmediateDma s = .next t) :
    ∃ d n, serveDma s.dev = .ok (d, n) ∧ t = { s with dev := d, stepCycles := s.stepCycles + n } :=
  afterTimed_eq_next h

/-- An advance that Advance's own loop ends is answered: with rounds to spare for any c (70_reset_and_hazards.md R857). -/
theorem advanceLoop_ends {c j : Nat} {d : Devices} {t : Devices × Nat} (h : Ends advanceRound j (c, d, 0) t)
    (hj : j + 1 ≤ 2 ^ (Config.loopBound + c)) : advanceLoop c d = .ok t :=
  untilDone_ends _ _ _ h (by simpa using hj)

/-! ## Cycles under CYCLE_COST, and the fetch -/

/-- Under the table the priced cycles are those charged. -/
@[simp] theorem priced_table {s : State} (h : s.dev.params.cycleCost = .table) : s.priced = s := by
  simp [State.priced, h]

/-- Pricing changes the cycles and the count of draws alone. -/
theorem priced_eq (s : State) : ∃ n k, s.priced = { s with stepCycles := n, freeCount := k } := by
  unfold State.priced
  split
  · exact ⟨_, _, rfl⟩
  · exact ⟨_, _, rfl⟩

@[simp] theorem irqCycles_table {p : Params} (h : p.cycleCost = .table) : irqCycles p = 3 := by simp [irqCycles, h]
@[simp] theorem dmaSetup_table {p : Params} (h : p.cycleCost = .table) : dmaSetup p = 2 := by simp [dmaSetup, h]
@[simp] theorem accessCycles_table {d : Devices} (h : d.params.cycleCost = .table) (w : Width) (a : Word) (q : Access) :
    accessCycles d w a q = accessCost d w a q := by simp [accessCycles, h]

/-- A choice among words takes one of them or the present one, and changes the count of draws alone. -/
theorem pickWord_cases (now : Word) (l : List Word) (s : State) :
    ∃ w k, (w ∈ l ∨ w = now) ∧ s.pickWord now l = (w, { s with freeCount := s.freeCount + k }) := by
  induction l generalizing s with
  | nil => exact ⟨now, 0, .inr rfl, rfl⟩
  | cons x xs ih =>
    unfold State.pickWord
    split
    · exact ⟨x, 1, .inl (List.mem_cons_self ..), rfl⟩
    · obtain ⟨w, k, h, e⟩ := ih s.drawBit.2
      refine ⟨w, 1 + k, h.imp (List.mem_cons_of_mem x) id, e.trans ?_⟩
      exact Prod.ext rfl (by simp only [State.drawBit, Nat.add_assoc])

/-- A fetch gives the word at pc, or one that a store overwrote there, and changes the count of draws alone. -/
theorem fetch_cases (s : State) :
    ∃ w k, (w ∈ staleWords s.stale s.pc ∨ w = s.fetchAt s.pc) ∧
      s.fetch = (w, { s with freeCount := s.freeCount + k }) := by
  unfold State.fetch
  split
  · exact ⟨_, 0, .inr rfl, rfl⟩
  · exact pickWord_cases _ _ s

/-! ## Services whose effect is OPEN -/

/-- Writing drawn registers changes registers alone. -/
theorem writeOpenRegs_frame (l : List (Fin 15 × Word)) (s : State) :
    ∃ r, writeOpenRegs l s = { s with regs := r } := by
  induction l generalizing s with
  | nil => exact ⟨s.regs, rfl⟩
  | cons x xs ih =>
    obtain ⟨r, h⟩ := ih (s.setReg (x.1.castLE (by decide)) x.2)
    exact ⟨r, h.trans (by simp)⟩

/-- An OPEN access changes the devices and the cycles alone, and the devices by a bus write, if at all, in which IF loses
no bit (60_exceptions.md R626). -/
theorem openAccess_cases (v : Svc) (a : OpenAccess) :
    ∃ n, (v.openAccess a).st = { v.st with stepCycles := n } ∨
      ∃ w, let d := busWrite v.st.dev w a.addr a.value
        (v.openAccess a).st =
          { v.st with stepCycles := n, dev := { d with iflag := d.iflag ||| v.st.dev.iflag } } := by
  unfold Svc.openAccess
  dsimp only
  split
  · exact ⟨_, .inr ⟨_, rfl⟩⟩
  · exact ⟨_, .inl rfl⟩

/-- No service whose effect is OPEN clears a bit of IF (60_exceptions.md R626). -/
theorem openAccesses_keep_iflag (l : List OpenAccess) (v : Svc) {b : Nat} (h : v.st.dev.iflag.getLsbD b = true) :
    (l.foldl Svc.openAccess v).st.dev.iflag.getLsbD b = true := by
  induction l generalizing v with
  | nil => exact h
  | cons a l ih =>
    refine ih _ ?_
    obtain ⟨n, e | ⟨w, e⟩⟩ := openAccess_cases v a <;> rw [e] <;> simp [h]

/-! ## A walk of the Huffman tree -/

/-- A service's read changes neither the devices nor what its next read sees. -/
@[simp] theorem Svc.read_dev (v : Svc) (w : Width) (a : Word) : (v.read w a).2.st.dev = v.st.dev := rfl
@[simp] theorem Svc.read_view (v : Svc) (w : Width) (a : Word) : (v.read w a).2.st.fetchView = v.st.fetchView := rfl
theorem Svc.read_value (v : Svc) (w : Width) (a : Word) :
    (v.read w a).1 = busRead v.st.dev v.st.fetchView w a := rfl

/-- Two walks at the same point: what decides every later bit is the same (R543). -/
def Huff.sameWalk (h g : Huff) : Prop :=
  h.stream = g.stream ∧ h.word = g.word ∧ h.left = g.left ∧ h.node = g.node ∧
    h.svc.st.dev = g.svc.st.dev ∧ h.svc.st.fetchView = g.svc.st.fetchView

/-- The point of a walk that has at most 32 bits of its word left, as a number. -/
def Huff.point (h : Huff) : Nat :=
  ((h.stream.toNat * 2 ^ 32 + h.word.toNat) * 2 ^ 32 + h.node.toNat) * 33 + h.left

theorem huff_point_lt {h : Huff} (hl : h.left ≤ 32) : h.point < 2 ^ 102 := by
  have h1 := h.stream.isLt
  have h2 := h.word.isLt
  have h3 := h.node.isLt
  unfold Huff.point
  omega

/-- Walks at one point in one memory are at the same point. -/
theorem huff_point_same {h g : Huff} (hh : h.left ≤ 32) (hg : g.left ≤ 32) (e : h.point = g.point)
    (hd : h.svc.st.dev = g.svc.st.dev) (hv : h.svc.st.fetchView = g.svc.st.fetchView) : h.sameWalk g := by
  have := h.word.isLt
  have := g.word.isLt
  have := h.node.isLt
  have := g.node.isLt
  unfold Huff.point at e
  refine ⟨BitVec.eq_of_toNat_eq ?_, BitVec.eq_of_toNat_eq ?_, ?_, BitVec.eq_of_toNat_eq ?_, hd, hv⟩ <;> omega

/-- The refill that a bit may need keeps its walk's memory. -/
theorem huff_refill_same {h g : Huff} (e : h.sameWalk g) :
    h.refill.sameWalk g.refill ∧ h.refill.svc.st.dev = h.svc.st.dev ∧
      h.refill.svc.st.fetchView = h.svc.st.fetchView := by
  obtain ⟨e1, -, -, e4, e5, e6⟩ := e
  simp [Huff.refill, Huff.sameWalk, Svc.read_value, e1, e4, e5, e6]

/-- A bit from one point of a walk moves to one point, whatever the walk's output so far, and keeps its memory. -/
theorem huff_bit_same {h g : Huff} (e : h.sameWalk g) :
    h.bit.1 = g.bit.1 ∧ h.bit.2.sameWalk g.bit.2 ∧ h.bit.2.svc.st.dev = h.svc.st.dev ∧
      h.bit.2.svc.st.fetchView = h.svc.st.fetchView ∧ (h.left ≤ 32 → h.bit.2.left ≤ 32) := by
  have e3 := e.2.2.1
  unfold Huff.bit
  rw [← e3]
  split
  · obtain ⟨⟨r1, r2, r3, r4, r5, r6⟩, rd, rv⟩ := huff_refill_same e
    refine ⟨?_, ?_, rd, rv, fun _ => ?_⟩
    · simp [Svc.read_value, r2, r4, r5, r6]
    · simp [Huff.sameWalk, Svc.read_value, r1, r2, r3, r4, r5, r6]
    · show 32 - 1 ≤ 32
      omega
  · obtain ⟨r1, r2, r3, r4, r5, r6⟩ := e
    refine ⟨?_, ?_, rfl, rfl, fun hl => ?_⟩
    · simp [Svc.read_value, r2, r4, r5, r6]
    · simp [Huff.sameWalk, Svc.read_value, r1, r2, r3, r4, r5, r6]
    · show h.left - 1 ≤ 32
      omega

/-- A round is its bit: done where the bit meets a data value, and else at the point it moves to. -/
theorem huff_round_cases (h : Huff) :
    (h.bit.1 = true ∧ ∃ v, h.round = .ok (.done v)) ∨ (h.bit.1 = false ∧ h.round = .ok (.more h.bit.2)) := by
  unfold Huff.round
  cases hb : h.bit.1
  · exact .inr ⟨rfl, by simp [hb]⟩
  · exact .inl ⟨rfl, _, by simp only [hb, if_true]; rfl⟩

/-- Walks at one point end after the same number of bits. -/
theorem huff_ends_same {j : Nat} {h : Huff} {v : Word × Huff} (r : Ends Huff.round j h v) :
    ∀ {i g w}, h.sameWalk g → Ends Huff.round i g w → j = i := by
  induction r with
  | @done a b ha =>
    intro i g w e q
    have hb := (huff_bit_same e).1
    rcases huff_round_cases a with ⟨ht, -⟩ | ⟨-, hm⟩
    · rcases huff_round_cases g with ⟨-, -⟩ | ⟨hf, -⟩
      · cases q with
        | done _ => rfl
        | more hg _ =>
          rcases huff_round_cases g with ⟨-, x, hx⟩ | ⟨hf, -⟩
          · rw [hx] at hg; cases hg
          · rw [← hb, ht] at hf; cases hf
      · rw [← hb, ht] at hf; cases hf
    · rw [hm] at ha; cases ha
  | @more a a1 b k ha r ih =>
    intro i g w e q
    obtain ⟨hb, hs, -⟩ := huff_bit_same e
    rcases huff_round_cases a with ⟨-, x, hx⟩ | ⟨hf, hm⟩
    · rw [hx] at ha; cases ha
    · rw [hm] at ha; cases ha
      rcases huff_round_cases g with ⟨ht, -⟩ | ⟨-, hg⟩
      · rw [← hb, hf] at ht; cases ht
      · cases q with
        | done hd => rw [hg] at hd; cases hd
        | more h1 q =>
          rw [hg] at h1; cases h1
          rw [ih hs q]

/-- At each count of bits before a walk ends stands a point of it, in its memory. -/
theorem huff_ends_points {j : Nat} {h : Huff} {v : Word × Huff} (r : Ends Huff.round j h v) (hl : h.left ≤ 32) :
    ∀ k < j, ∃ a w, Ends Huff.round (k + 1) a w ∧ a.left ≤ 32 ∧ a.svc.st.dev = h.svc.st.dev ∧
      a.svc.st.fetchView = h.svc.st.fetchView := by
  induction r with
  | @done a b ha =>
    intro k hk
    obtain rfl : k = 0 := by omega
    exact ⟨a, b, .done ha, hl, rfl, rfl⟩
  | @more a a1 b i ha r ih =>
    intro k hk
    rcases huff_round_cases a with ⟨-, x, hx⟩ | ⟨-, hm⟩
    · rw [hx] at ha; cases ha
    · rw [hm] at ha; cases ha
      obtain ⟨-, -, hd, hv, hb⟩ := huff_bit_same (h := a) (g := a) ⟨rfl, rfl, rfl, rfl, rfl, rfl⟩
      by_cases hk2 : k = i
      · subst hk2
        exact ⟨a, b, .more hm r, hl, rfl, rfl⟩
      · obtain ⟨c, w, q, q1, q2, q3⟩ := ih (hb hl) k (by omega)
        exact ⟨c, w, q, q1, q2.trans hd, q3.trans hv⟩

/-- A walk that ends does so within 2 ^ 102 bits, for it passes no point twice. -/
theorem huff_ends_bound {j : Nat} {h : Huff} {v : Word × Huff} (r : Ends Huff.round j h v) (hl : h.left ≤ 32) :
    j ≤ 2 ^ 102 := by
  have hp := huff_ends_points r hl
  choose a w q q1 q2 q3 using hp
  have inj : Function.Injective fun k : Fin j => (⟨(a k k.2).point, huff_point_lt (q1 k k.2)⟩ : Fin (2 ^ 102)) := by
    intro k i e
    have hs := huff_point_same (q1 k k.2) (q1 i i.2) (Fin.mk.inj e) ((q2 k k.2).trans (q2 i i.2).symm)
      ((q3 k k.2).trans (q3 i i.2).symm)
    exact Fin.ext (by simpa using huff_ends_same (q k k.2) hs (q i i.2))
  simpa using Fintype.card_le_of_injective _ inj

/-- Every walk of the tree that ends is answered, whatever its length, with the data value it ends at (R543). -/
theorem huffWalk_ends {j : Nat} {h : Huff} {v : Word × Huff} (r : Ends Huff.round j h v) (hl : h.left ≤ 32) :
    h.walk = v := by
  have hj := huff_ends_bound r hl
  unfold Huff.walk
  rcases rounds_ends Huff.round 102 r with ⟨-, e⟩ | ⟨hlt, -⟩
  · rw [e]
  · omega

end Sys2Proof.Machine
end

