-- ==== Sys2Proof/Laws/PerInstr.lean ====
section
/-! SUPPORT. A statement about every instruction as syntax: its encoding fits its state's instruction width. -/

namespace Sys2Proof.Laws

/-- A condition number has four bits. -/
theorem cond_number_lt (c : Cond) : c.number < 16 := by cases c <;> decide

/-- A shift number has two bits. -/
theorem shift_number_lt (s : ShiftType) : s.number < 4 := by cases s <;> decide

/-- The offset, base and direction of a mode 2 transfer lie below bit 26. -/
theorem mode2_bits_le (m : Mode2) : m.bits ≤ 0x28F0FFF := by
  obtain ⟨up, rn, off⟩ := m
  have := up.toNat_lt
  cases off with
  | imm o => have := o.isLt; simp only [Mode2.bits]; omega
  | reg rm sh amt => have := amt.isLt; have := shift_number_lt sh; simp only [Mode2.bits]; omega

/-- The offset, base and direction of a mode 3 transfer lie below bit 25. -/
theorem mode3_bits_le (m : Mode3) : m.bits ≤ 0x1EF0F0F := by
  obtain ⟨pre, up, wback, rn, off⟩ := m
  have := pre.toNat_lt; have := up.toNat_lt; have := wback.toNat_lt
  cases off with
  | imm o => have := o.isLt; simp only [Mode3.bits]; omega
  | reg rm => simp only [Mode3.bits]; omega

/-- An ARM instruction is one word and a Thumb instruction one halfword (30_encoding.md R201, R209). -/
def EncodeFits.Statement (i : Instr) : Prop := encode i < 2 ^ (if i.isThumb then 16 else 32)

theorem EncodeFits.armBx (cond : Cond) (rm : Reg) : EncodeFits.Statement (.armBx cond rm) := by
  have := cond_number_lt cond; show cond.number * 0x10000000 + 0x12FFF10 + rm.val < 0x100000000; omega

theorem EncodeFits.armMul (cond : Cond) (s : Bool) (rd : Reg) (rs : Reg) (rm : Reg) : EncodeFits.Statement (.armMul cond s rd rs rm) := by
  have := cond_number_lt cond; have := s.toNat_lt; show cond.number * 0x10000000 + 0x90 + s.toNat * 0x100000 + rd.val * 0x10000 + rs.val * 0x100 + rm.val < 0x100000000; omega

theorem EncodeFits.armMla (cond : Cond) (s : Bool) (rd : Reg) (rn : Reg) (rs : Reg) (rm : Reg) : EncodeFits.Statement (.armMla cond s rd rn rs rm) := by
  have := cond_number_lt cond; have := s.toNat_lt; show cond.number * 0x10000000 + 0x200090 + s.toNat * 0x100000 + rd.val * 0x10000 + rn.val * 0x1000 + rs.val * 0x100 + rm.val < 0x100000000; omega

theorem EncodeFits.armUmull (cond : Cond) (s : Bool) (rdHi : Reg) (rdLo : Reg) (rs : Reg) (rm : Reg) : EncodeFits.Statement (.armUmull cond s rdHi rdLo rs rm) := by
  have := cond_number_lt cond; have := s.toNat_lt; show cond.number * 0x10000000 + 0x800090 + s.toNat * 0x100000 + rdHi.val * 0x10000 + rdLo.val * 0x1000 + rs.val * 0x100 + rm.val < 0x100000000; omega

theorem EncodeFits.armUmlal (cond : Cond) (s : Bool) (rdHi : Reg) (rdLo : Reg) (rs : Reg) (rm : Reg) : EncodeFits.Statement (.armUmlal cond s rdHi rdLo rs rm) := by
  have := cond_number_lt cond; have := s.toNat_lt; show cond.number * 0x10000000 + 0xA00090 + s.toNat * 0x100000 + rdHi.val * 0x10000 + rdLo.val * 0x1000 + rs.val * 0x100 + rm.val < 0x100000000; omega

theorem EncodeFits.armSmull (cond : Cond) (s : Bool) (rdHi : Reg) (rdLo : Reg) (rs : Reg) (rm : Reg) : EncodeFits.Statement (.armSmull cond s rdHi rdLo rs rm) := by
  have := cond_number_lt cond; have := s.toNat_lt; show cond.number * 0x10000000 + 0xC00090 + s.toNat * 0x100000 + rdHi.val * 0x10000 + rdLo.val * 0x1000 + rs.val * 0x100 + rm.val < 0x100000000; omega

theorem EncodeFits.armSmlal (cond : Cond) (s : Bool) (rdHi : Reg) (rdLo : Reg) (rs : Reg) (rm : Reg) : EncodeFits.Statement (.armSmlal cond s rdHi rdLo rs rm) := by
  have := cond_number_lt cond; have := s.toNat_lt; show cond.number * 0x10000000 + 0xE00090 + s.toNat * 0x100000 + rdHi.val * 0x10000 + rdLo.val * 0x1000 + rs.val * 0x100 + rm.val < 0x100000000; omega

theorem EncodeFits.armSwp (cond : Cond) (rn : Reg) (rd : Reg) (rm : Reg) : EncodeFits.Statement (.armSwp cond rn rd rm) := by
  have := cond_number_lt cond; show cond.number * 0x10000000 + 0x1000090 + rn.val * 0x10000 + rd.val * 0x1000 + rm.val < 0x100000000; omega

theorem EncodeFits.armSwpb (cond : Cond) (rn : Reg) (rd : Reg) (rm : Reg) : EncodeFits.Statement (.armSwpb cond rn rd rm) := by
  have := cond_number_lt cond; show cond.number * 0x10000000 + 0x1400090 + rn.val * 0x10000 + rd.val * 0x1000 + rm.val < 0x100000000; omega

theorem EncodeFits.armStrh (cond : Cond) (m : Mode3) (rd : Reg) : EncodeFits.Statement (.armStrh cond m rd) := by
  have := cond_number_lt cond; have := mode3_bits_le m; show cond.number * 0x10000000 + 0xB0 + m.bits + rd.val * 0x1000 < 0x100000000; omega

theorem EncodeFits.armLdrh (cond : Cond) (m : Mode3) (rd : Reg) : EncodeFits.Statement (.armLdrh cond m rd) := by
  have := cond_number_lt cond; have := mode3_bits_le m; show cond.number * 0x10000000 + 0x1000B0 + m.bits + rd.val * 0x1000 < 0x100000000; omega

theorem EncodeFits.armLdrsb (cond : Cond) (m : Mode3) (rd : Reg) : EncodeFits.Statement (.armLdrsb cond m rd) := by
  have := cond_number_lt cond; have := mode3_bits_le m; show cond.number * 0x10000000 + 0x1000D0 + m.bits + rd.val * 0x1000 < 0x100000000; omega

theorem EncodeFits.armLdrsh (cond : Cond) (m : Mode3) (rd : Reg) : EncodeFits.Statement (.armLdrsh cond m rd) := by
  have := cond_number_lt cond; have := mode3_bits_le m; show cond.number * 0x10000000 + 0x1000F0 + m.bits + rd.val * 0x1000 < 0x100000000; omega

theorem EncodeFits.armUndefSignedStore (cond : Cond) (bits : BitVec 28) : EncodeFits.Statement (.armUndefSignedStore cond bits) := by
  have := cond_number_lt cond; have := bits.isLt; show cond.number * 0x10000000 + bits.toNat < 0x100000000; omega

theorem EncodeFits.armUndefMulSpace (cond : Cond) (bits : BitVec 28) : EncodeFits.Statement (.armUndefMulSpace cond bits) := by
  have := cond_number_lt cond; have := bits.isLt; show cond.number * 0x10000000 + bits.toNat < 0x100000000; omega

theorem EncodeFits.armMrs (cond : Cond) (r : Bool) (rd : Reg) : EncodeFits.Statement (.armMrs cond r rd) := by
  have := cond_number_lt cond; have := r.toNat_lt; show cond.number * 0x10000000 + 0x10F0000 + r.toNat * 0x400000 + rd.val * 0x1000 < 0x100000000; omega

theorem EncodeFits.armMsrReg (cond : Cond) (r : Bool) (mask : BitVec 4) (rm : Reg) : EncodeFits.Statement (.armMsrReg cond r mask rm) := by
  have := cond_number_lt cond; have := r.toNat_lt; have := mask.isLt; show cond.number * 0x10000000 + 0x120F000 + r.toNat * 0x400000 + mask.toNat * 0x10000 + rm.val < 0x100000000; omega

theorem EncodeFits.armMsrImm (cond : Cond) (r : Bool) (mask : BitVec 4) (rot : BitVec 4) (imm : BitVec 8) : EncodeFits.Statement (.armMsrImm cond r mask rot imm) := by
  have := cond_number_lt cond; have := r.toNat_lt; have := mask.isLt; have := rot.isLt; have := imm.isLt; show cond.number * 0x10000000 + 0x320F000 + r.toNat * 0x400000 + mask.toNat * 0x10000 + rot.toNat * 0x100 + imm.toNat < 0x100000000; omega

theorem EncodeFits.armUndefControl (cond : Cond) (bits : BitVec 28) : EncodeFits.Statement (.armUndefControl cond bits) := by
  have := cond_number_lt cond; have := bits.isLt; show cond.number * 0x10000000 + bits.toNat < 0x100000000; omega

theorem EncodeFits.armUndefTestImm (cond : Cond) (bits : BitVec 28) : EncodeFits.Statement (.armUndefTestImm cond bits) := by
  have := cond_number_lt cond; have := bits.isLt; show cond.number * 0x10000000 + bits.toNat < 0x100000000; omega

theorem EncodeFits.armAndImm (cond : Cond) (s : Bool) (rn : Reg) (rd : Reg) (rot : BitVec 4) (imm : BitVec 8) : EncodeFits.Statement (.armAndImm cond s rn rd rot imm) := by
  have := cond_number_lt cond; have := s.toNat_lt; have := rot.isLt; have := imm.isLt; show cond.number * 0x10000000 + 0x2000000 + s.toNat * 0x100000 + rn.val * 0x10000 + rd.val * 0x1000 + rot.toNat * 0x100 + imm.toNat < 0x100000000; omega

theorem EncodeFits.armAndShift (cond : Cond) (s : Bool) (rn : Reg) (rd : Reg) (amt : BitVec 5) (sh : ShiftType) (rm : Reg) : EncodeFits.Statement (.armAndShift cond s rn rd amt sh rm) := by
  have := cond_number_lt cond; have := s.toNat_lt; have := amt.isLt; have := shift_number_lt sh; show cond.number * 0x10000000 + s.toNat * 0x100000 + rn.val * 0x10000 + rd.val * 0x1000 + amt.toNat * 0x80 + sh.number * 0x20 + rm.val < 0x100000000; omega

theorem EncodeFits.armAndReg (cond : Cond) (s : Bool) (rn : Reg) (rd : Reg) (rs : Reg) (sh : ShiftType) (rm : Reg) : EncodeFits.Statement (.armAndReg cond s rn rd rs sh rm) := by
  have := cond_number_lt cond; have := s.toNat_lt; have := shift_number_lt sh; show cond.number * 0x10000000 + 0x10 + s.toNat * 0x100000 + rn.val * 0x10000 + rd.val * 0x1000 + rs.val * 0x100 + sh.number * 0x20 + rm.val < 0x100000000; omega

theorem EncodeFits.armEorImm (cond : Cond) (s : Bool) (rn : Reg) (rd : Reg) (rot : BitVec 4) (imm : BitVec 8) : EncodeFits.Statement (.armEorImm cond s rn rd rot imm) := by
  have := cond_number_lt cond; have := s.toNat_lt; have := rot.isLt; have := imm.isLt; show cond.number * 0x10000000 + 0x2200000 + s.toNat * 0x100000 + rn.val * 0x10000 + rd.val * 0x1000 + rot.toNat * 0x100 + imm.toNat < 0x100000000; omega

theorem EncodeFits.armEorShift (cond : Cond) (s : Bool) (rn : Reg) (rd : Reg) (amt : BitVec 5) (sh : ShiftType) (rm : Reg) : EncodeFits.Statement (.armEorShift cond s rn rd amt sh rm) := by
  have := cond_number_lt cond; have := s.toNat_lt; have := amt.isLt; have := shift_number_lt sh; show cond.number * 0x10000000 + 0x200000 + s.toNat * 0x100000 + rn.val * 0x10000 + rd.val * 0x1000 + amt.toNat * 0x80 + sh.number * 0x20 + rm.val < 0x100000000; omega

theorem EncodeFits.armEorReg (cond : Cond) (s : Bool) (rn : Reg) (rd : Reg) (rs : Reg) (sh : ShiftType) (rm : Reg) : EncodeFits.Statement (.armEorReg cond s rn rd rs sh rm) := by
  have := cond_number_lt cond; have := s.toNat_lt; have := shift_number_lt sh; show cond.number * 0x10000000 + 0x200010 + s.toNat * 0x100000 + rn.val * 0x10000 + rd.val * 0x1000 + rs.val * 0x100 + sh.number * 0x20 + rm.val < 0x100000000; omega

theorem EncodeFits.armSubImm (cond : Cond) (s : Bool) (rn : Reg) (rd : Reg) (rot : BitVec 4) (imm : BitVec 8) : EncodeFits.Statement (.armSubImm cond s rn rd rot imm) := by
  have := cond_number_lt cond; have := s.toNat_lt; have := rot.isLt; have := imm.isLt; show cond.number * 0x10000000 + 0x2400000 + s.toNat * 0x100000 + rn.val * 0x10000 + rd.val * 0x1000 + rot.toNat * 0x100 + imm.toNat < 0x100000000; omega

theorem EncodeFits.armSubShift (cond : Cond) (s : Bool) (rn : Reg) (rd : Reg) (amt : BitVec 5) (sh : ShiftType) (rm : Reg) : EncodeFits.Statement (.armSubShift cond s rn rd amt sh rm) := by
  have := cond_number_lt cond; have := s.toNat_lt; have := amt.isLt; have := shift_number_lt sh; show cond.number * 0x10000000 + 0x400000 + s.toNat * 0x100000 + rn.val * 0x10000 + rd.val * 0x1000 + amt.toNat * 0x80 + sh.number * 0x20 + rm.val < 0x100000000; omega

theorem EncodeFits.armSubReg (cond : Cond) (s : Bool) (rn : Reg) (rd : Reg) (rs : Reg) (sh : ShiftType) (rm : Reg) : EncodeFits.Statement (.armSubReg cond s rn rd rs sh rm) := by
  have := cond_number_lt cond; have := s.toNat_lt; have := shift_number_lt sh; show cond.number * 0x10000000 + 0x400010 + s.toNat * 0x100000 + rn.val * 0x10000 + rd.val * 0x1000 + rs.val * 0x100 + sh.number * 0x20 + rm.val < 0x100000000; omega

theorem EncodeFits.armRsbImm (cond : Cond) (s : Bool) (rn : Reg) (rd : Reg) (rot : BitVec 4) (imm : BitVec 8) : EncodeFits.Statement (.armRsbImm cond s rn rd rot imm) := by
  have := cond_number_lt cond; have := s.toNat_lt; have := rot.isLt; have := imm.isLt; show cond.number * 0x10000000 + 0x2600000 + s.toNat * 0x100000 + rn.val * 0x10000 + rd.val * 0x1000 + rot.toNat * 0x100 + imm.toNat < 0x100000000; omega

theorem EncodeFits.armRsbShift (cond : Cond) (s : Bool) (rn : Reg) (rd : Reg) (amt : BitVec 5) (sh : ShiftType) (rm : Reg) : EncodeFits.Statement (.armRsbShift cond s rn rd amt sh rm) := by
  have := cond_number_lt cond; have := s.toNat_lt; have := amt.isLt; have := shift_number_lt sh; show cond.number * 0x10000000 + 0x600000 + s.toNat * 0x100000 + rn.val * 0x10000 + rd.val * 0x1000 + amt.toNat * 0x80 + sh.number * 0x20 + rm.val < 0x100000000; omega

theorem EncodeFits.armRsbReg (cond : Cond) (s : Bool) (rn : Reg) (rd : Reg) (rs : Reg) (sh : ShiftType) (rm : Reg) : EncodeFits.Statement (.armRsbReg cond s rn rd rs sh rm) := by
  have := cond_number_lt cond; have := s.toNat_lt; have := shift_number_lt sh; show cond.number * 0x10000000 + 0x600010 + s.toNat * 0x100000 + rn.val * 0x10000 + rd.val * 0x1000 + rs.val * 0x100 + sh.number * 0x20 + rm.val < 0x100000000; omega

theorem EncodeFits.armAddImm (cond : Cond) (s : Bool) (rn : Reg) (rd : Reg) (rot : BitVec 4) (imm : BitVec 8) : EncodeFits.Statement (.armAddImm cond s rn rd rot imm) := by
  have := cond_number_lt cond; have := s.toNat_lt; have := rot.isLt; have := imm.isLt; show cond.number * 0x10000000 + 0x2800000 + s.toNat * 0x100000 + rn.val * 0x10000 + rd.val * 0x1000 + rot.toNat * 0x100 + imm.toNat < 0x100000000; omega

theorem EncodeFits.armAddShift (cond : Cond) (s : Bool) (rn : Reg) (rd : Reg) (amt : BitVec 5) (sh : ShiftType) (rm : Reg) : EncodeFits.Statement (.armAddShift cond s rn rd amt sh rm) := by
  have := cond_number_lt cond; have := s.toNat_lt; have := amt.isLt; have := shift_number_lt sh; show cond.number * 0x10000000 + 0x800000 + s.toNat * 0x100000 + rn.val * 0x10000 + rd.val * 0x1000 + amt.toNat * 0x80 + sh.number * 0x20 + rm.val < 0x100000000; omega

theorem EncodeFits.armAddReg (cond : Cond) (s : Bool) (rn : Reg) (rd : Reg) (rs : Reg) (sh : ShiftType) (rm : Reg) : EncodeFits.Statement (.armAddReg cond s rn rd rs sh rm) := by
  have := cond_number_lt cond; have := s.toNat_lt; have := shift_number_lt sh; show cond.number * 0x10000000 + 0x800010 + s.toNat * 0x100000 + rn.val * 0x10000 + rd.val * 0x1000 + rs.val * 0x100 + sh.number * 0x20 + rm.val < 0x100000000; omega

theorem EncodeFits.armAdcImm (cond : Cond) (s : Bool) (rn : Reg) (rd : Reg) (rot : BitVec 4) (imm : BitVec 8) : EncodeFits.Statement (.armAdcImm cond s rn rd rot imm) := by
  have := cond_number_lt cond; have := s.toNat_lt; have := rot.isLt; have := imm.isLt; show cond.number * 0x10000000 + 0x2A00000 + s.toNat * 0x100000 + rn.val * 0x10000 + rd.val * 0x1000 + rot.toNat * 0x100 + imm.toNat < 0x100000000; omega

theorem EncodeFits.armAdcShift (cond : Cond) (s : Bool) (rn : Reg) (rd : Reg) (amt : BitVec 5) (sh : ShiftType) (rm : Reg) : EncodeFits.Statement (.armAdcShift cond s rn rd amt sh rm) := by
  have := cond_number_lt cond; have := s.toNat_lt; have := amt.isLt; have := shift_number_lt sh; show cond.number * 0x10000000 + 0xA00000 + s.toNat * 0x100000 + rn.val * 0x10000 + rd.val * 0x1000 + amt.toNat * 0x80 + sh.number * 0x20 + rm.val < 0x100000000; omega

theorem EncodeFits.armAdcReg (cond : Cond) (s : Bool) (rn : Reg) (rd : Reg) (rs : Reg) (sh : ShiftType) (rm : Reg) : EncodeFits.Statement (.armAdcReg cond s rn rd rs sh rm) := by
  have := cond_number_lt cond; have := s.toNat_lt; have := shift_number_lt sh; show cond.number * 0x10000000 + 0xA00010 + s.toNat * 0x100000 + rn.val * 0x10000 + rd.val * 0x1000 + rs.val * 0x100 + sh.number * 0x20 + rm.val < 0x100000000; omega

theorem EncodeFits.armSbcImm (cond : Cond) (s : Bool) (rn : Reg) (rd : Reg) (rot : BitVec 4) (imm : BitVec 8) : EncodeFits.Statement (.armSbcImm cond s rn rd rot imm) := by
  have := cond_number_lt cond; have := s.toNat_lt; have := rot.isLt; have := imm.isLt; show cond.number * 0x10000000 + 0x2C00000 + s.toNat * 0x100000 + rn.val * 0x10000 + rd.val * 0x1000 + rot.toNat * 0x100 + imm.toNat < 0x100000000; omega

theorem EncodeFits.armSbcShift (cond : Cond) (s : Bool) (rn : Reg) (rd : Reg) (amt : BitVec 5) (sh : ShiftType) (rm : Reg) : EncodeFits.Statement (.armSbcShift cond s rn rd amt sh rm) := by
  have := cond_number_lt cond; have := s.toNat_lt; have := amt.isLt; have := shift_number_lt sh; show cond.number * 0x10000000 + 0xC00000 + s.toNat * 0x100000 + rn.val * 0x10000 + rd.val * 0x1000 + amt.toNat * 0x80 + sh.number * 0x20 + rm.val < 0x100000000; omega

theorem EncodeFits.armSbcReg (cond : Cond) (s : Bool) (rn : Reg) (rd : Reg) (rs : Reg) (sh : ShiftType) (rm : Reg) : EncodeFits.Statement (.armSbcReg cond s rn rd rs sh rm) := by
  have := cond_number_lt cond; have := s.toNat_lt; have := shift_number_lt sh; show cond.number * 0x10000000 + 0xC00010 + s.toNat * 0x100000 + rn.val * 0x10000 + rd.val * 0x1000 + rs.val * 0x100 + sh.number * 0x20 + rm.val < 0x100000000; omega

theorem EncodeFits.armRscImm (cond : Cond) (s : Bool) (rn : Reg) (rd : Reg) (rot : BitVec 4) (imm : BitVec 8) : EncodeFits.Statement (.armRscImm cond s rn rd rot imm) := by
  have := cond_number_lt cond; have := s.toNat_lt; have := rot.isLt; have := imm.isLt; show cond.number * 0x10000000 + 0x2E00000 + s.toNat * 0x100000 + rn.val * 0x10000 + rd.val * 0x1000 + rot.toNat * 0x100 + imm.toNat < 0x100000000; omega

theorem EncodeFits.armRscShift (cond : Cond) (s : Bool) (rn : Reg) (rd : Reg) (amt : BitVec 5) (sh : ShiftType) (rm : Reg) : EncodeFits.Statement (.armRscShift cond s rn rd amt sh rm) := by
  have := cond_number_lt cond; have := s.toNat_lt; have := amt.isLt; have := shift_number_lt sh; show cond.number * 0x10000000 + 0xE00000 + s.toNat * 0x100000 + rn.val * 0x10000 + rd.val * 0x1000 + amt.toNat * 0x80 + sh.number * 0x20 + rm.val < 0x100000000; omega

theorem EncodeFits.armRscReg (cond : Cond) (s : Bool) (rn : Reg) (rd : Reg) (rs : Reg) (sh : ShiftType) (rm : Reg) : EncodeFits.Statement (.armRscReg cond s rn rd rs sh rm) := by
  have := cond_number_lt cond; have := s.toNat_lt; have := shift_number_lt sh; show cond.number * 0x10000000 + 0xE00010 + s.toNat * 0x100000 + rn.val * 0x10000 + rd.val * 0x1000 + rs.val * 0x100 + sh.number * 0x20 + rm.val < 0x100000000; omega

theorem EncodeFits.armTstImm (cond : Cond) (rn : Reg) (rot : BitVec 4) (imm : BitVec 8) : EncodeFits.Statement (.armTstImm cond rn rot imm) := by
  have := cond_number_lt cond; have := rot.isLt; have := imm.isLt; show cond.number * 0x10000000 + 0x3100000 + rn.val * 0x10000 + rot.toNat * 0x100 + imm.toNat < 0x100000000; omega

theorem EncodeFits.armTstShift (cond : Cond) (rn : Reg) (amt : BitVec 5) (sh : ShiftType) (rm : Reg) : EncodeFits.Statement (.armTstShift cond rn amt sh rm) := by
  have := cond_number_lt cond; have := amt.isLt; have := shift_number_lt sh; show cond.number * 0x10000000 + 0x1100000 + rn.val * 0x10000 + amt.toNat * 0x80 + sh.number * 0x20 + rm.val < 0x100000000; omega

theorem EncodeFits.armTstReg (cond : Cond) (rn : Reg) (rs : Reg) (sh : ShiftType) (rm : Reg) : EncodeFits.Statement (.armTstReg cond rn rs sh rm) := by
  have := cond_number_lt cond; have := shift_number_lt sh; show cond.number * 0x10000000 + 0x1100010 + rn.val * 0x10000 + rs.val * 0x100 + sh.number * 0x20 + rm.val < 0x100000000; omega

theorem EncodeFits.armTeqImm (cond : Cond) (rn : Reg) (rot : BitVec 4) (imm : BitVec 8) : EncodeFits.Statement (.armTeqImm cond rn rot imm) := by
  have := cond_number_lt cond; have := rot.isLt; have := imm.isLt; show cond.number * 0x10000000 + 0x3300000 + rn.val * 0x10000 + rot.toNat * 0x100 + imm.toNat < 0x100000000; omega

theorem EncodeFits.armTeqShift (cond : Cond) (rn : Reg) (amt : BitVec 5) (sh : ShiftType) (rm : Reg) : EncodeFits.Statement (.armTeqShift cond rn amt sh rm) := by
  have := cond_number_lt cond; have := amt.isLt; have := shift_number_lt sh; show cond.number * 0x10000000 + 0x1300000 + rn.val * 0x10000 + amt.toNat * 0x80 + sh.number * 0x20 + rm.val < 0x100000000; omega

theorem EncodeFits.armTeqReg (cond : Cond) (rn : Reg) (rs : Reg) (sh : ShiftType) (rm : Reg) : EncodeFits.Statement (.armTeqReg cond rn rs sh rm) := by
  have := cond_number_lt cond; have := shift_number_lt sh; show cond.number * 0x10000000 + 0x1300010 + rn.val * 0x10000 + rs.val * 0x100 + sh.number * 0x20 + rm.val < 0x100000000; omega

theorem EncodeFits.armCmpImm (cond : Cond) (rn : Reg) (rot : BitVec 4) (imm : BitVec 8) : EncodeFits.Statement (.armCmpImm cond rn rot imm) := by
  have := cond_number_lt cond; have := rot.isLt; have := imm.isLt; show cond.number * 0x10000000 + 0x3500000 + rn.val * 0x10000 + rot.toNat * 0x100 + imm.toNat < 0x100000000; omega

theorem EncodeFits.armCmpShift (cond : Cond) (rn : Reg) (amt : BitVec 5) (sh : ShiftType) (rm : Reg) : EncodeFits.Statement (.armCmpShift cond rn amt sh rm) := by
  have := cond_number_lt cond; have := amt.isLt; have := shift_number_lt sh; show cond.number * 0x10000000 + 0x1500000 + rn.val * 0x10000 + amt.toNat * 0x80 + sh.number * 0x20 + rm.val < 0x100000000; omega

theorem EncodeFits.armCmpReg (cond : Cond) (rn : Reg) (rs : Reg) (sh : ShiftType) (rm : Reg) : EncodeFits.Statement (.armCmpReg cond rn rs sh rm) := by
  have := cond_number_lt cond; have := shift_number_lt sh; show cond.number * 0x10000000 + 0x1500010 + rn.val * 0x10000 + rs.val * 0x100 + sh.number * 0x20 + rm.val < 0x100000000; omega

theorem EncodeFits.armCmnImm (cond : Cond) (rn : Reg) (rot : BitVec 4) (imm : BitVec 8) : EncodeFits.Statement (.armCmnImm cond rn rot imm) := by
  have := cond_number_lt cond; have := rot.isLt; have := imm.isLt; show cond.number * 0x10000000 + 0x3700000 + rn.val * 0x10000 + rot.toNat * 0x100 + imm.toNat < 0x100000000; omega

theorem EncodeFits.armCmnShift (cond : Cond) (rn : Reg) (amt : BitVec 5) (sh : ShiftType) (rm : Reg) : EncodeFits.Statement (.armCmnShift cond rn amt sh rm) := by
  have := cond_number_lt cond; have := amt.isLt; have := shift_number_lt sh; show cond.number * 0x10000000 + 0x1700000 + rn.val * 0x10000 + amt.toNat * 0x80 + sh.number * 0x20 + rm.val < 0x100000000; omega

theorem EncodeFits.armCmnReg (cond : Cond) (rn : Reg) (rs : Reg) (sh : ShiftType) (rm : Reg) : EncodeFits.Statement (.armCmnReg cond rn rs sh rm) := by
  have := cond_number_lt cond; have := shift_number_lt sh; show cond.number * 0x10000000 + 0x1700010 + rn.val * 0x10000 + rs.val * 0x100 + sh.number * 0x20 + rm.val < 0x100000000; omega

theorem EncodeFits.armOrrImm (cond : Cond) (s : Bool) (rn : Reg) (rd : Reg) (rot : BitVec 4) (imm : BitVec 8) : EncodeFits.Statement (.armOrrImm cond s rn rd rot imm) := by
  have := cond_number_lt cond; have := s.toNat_lt; have := rot.isLt; have := imm.isLt; show cond.number * 0x10000000 + 0x3800000 + s.toNat * 0x100000 + rn.val * 0x10000 + rd.val * 0x1000 + rot.toNat * 0x100 + imm.toNat < 0x100000000; omega

theorem EncodeFits.armOrrShift (cond : Cond) (s : Bool) (rn : Reg) (rd : Reg) (amt : BitVec 5) (sh : ShiftType) (rm : Reg) : EncodeFits.Statement (.armOrrShift cond s rn rd amt sh rm) := by
  have := cond_number_lt cond; have := s.toNat_lt; have := amt.isLt; have := shift_number_lt sh; show cond.number * 0x10000000 + 0x1800000 + s.toNat * 0x100000 + rn.val * 0x10000 + rd.val * 0x1000 + amt.toNat * 0x80 + sh.number * 0x20 + rm.val < 0x100000000; omega

theorem EncodeFits.armOrrReg (cond : Cond) (s : Bool) (rn : Reg) (rd : Reg) (rs : Reg) (sh : ShiftType) (rm : Reg) : EncodeFits.Statement (.armOrrReg cond s rn rd rs sh rm) := by
  have := cond_number_lt cond; have := s.toNat_lt; have := shift_number_lt sh; show cond.number * 0x10000000 + 0x1800010 + s.toNat * 0x100000 + rn.val * 0x10000 + rd.val * 0x1000 + rs.val * 0x100 + sh.number * 0x20 + rm.val < 0x100000000; omega

theorem EncodeFits.armMovImm (cond : Cond) (s : Bool) (rd : Reg) (rot : BitVec 4) (imm : BitVec 8) : EncodeFits.Statement (.armMovImm cond s rd rot imm) := by
  have := cond_number_lt cond; have := s.toNat_lt; have := rot.isLt; have := imm.isLt; show cond.number * 0x10000000 + 0x3A00000 + s.toNat * 0x100000 + rd.val * 0x1000 + rot.toNat * 0x100 + imm.toNat < 0x100000000; omega

theorem EncodeFits.armMovShift (cond : Cond) (s : Bool) (rd : Reg) (amt : BitVec 5) (sh : ShiftType) (rm : Reg) : EncodeFits.Statement (.armMovShift cond s rd amt sh rm) := by
  have := cond_number_lt cond; have := s.toNat_lt; have := amt.isLt; have := shift_number_lt sh; show cond.number * 0x10000000 + 0x1A00000 + s.toNat * 0x100000 + rd.val * 0x1000 + amt.toNat * 0x80 + sh.number * 0x20 + rm.val < 0x100000000; omega

theorem EncodeFits.armMovReg (cond : Cond) (s : Bool) (rd : Reg) (rs : Reg) (sh : ShiftType) (rm : Reg) : EncodeFits.Statement (.armMovReg cond s rd rs sh rm) := by
  have := cond_number_lt cond; have := s.toNat_lt; have := shift_number_lt sh; show cond.number * 0x10000000 + 0x1A00010 + s.toNat * 0x100000 + rd.val * 0x1000 + rs.val * 0x100 + sh.number * 0x20 + rm.val < 0x100000000; omega

theorem EncodeFits.armBicImm (cond : Cond) (s : Bool) (rn : Reg) (rd : Reg) (rot : BitVec 4) (imm : BitVec 8) : EncodeFits.Statement (.armBicImm cond s rn rd rot imm) := by
  have := cond_number_lt cond; have := s.toNat_lt; have := rot.isLt; have := imm.isLt; show cond.number * 0x10000000 + 0x3C00000 + s.toNat * 0x100000 + rn.val * 0x10000 + rd.val * 0x1000 + rot.toNat * 0x100 + imm.toNat < 0x100000000; omega

theorem EncodeFits.armBicShift (cond : Cond) (s : Bool) (rn : Reg) (rd : Reg) (amt : BitVec 5) (sh : ShiftType) (rm : Reg) : EncodeFits.Statement (.armBicShift cond s rn rd amt sh rm) := by
  have := cond_number_lt cond; have := s.toNat_lt; have := amt.isLt; have := shift_number_lt sh; show cond.number * 0x10000000 + 0x1C00000 + s.toNat * 0x100000 + rn.val * 0x10000 + rd.val * 0x1000 + amt.toNat * 0x80 + sh.number * 0x20 + rm.val < 0x100000000; omega

theorem EncodeFits.armBicReg (cond : Cond) (s : Bool) (rn : Reg) (rd : Reg) (rs : Reg) (sh : ShiftType) (rm : Reg) : EncodeFits.Statement (.armBicReg cond s rn rd rs sh rm) := by
  have := cond_number_lt cond; have := s.toNat_lt; have := shift_number_lt sh; show cond.number * 0x10000000 + 0x1C00010 + s.toNat * 0x100000 + rn.val * 0x10000 + rd.val * 0x1000 + rs.val * 0x100 + sh.number * 0x20 + rm.val < 0x100000000; omega

theorem EncodeFits.armMvnImm (cond : Cond) (s : Bool) (rd : Reg) (rot : BitVec 4) (imm : BitVec 8) : EncodeFits.Statement (.armMvnImm cond s rd rot imm) := by
  have := cond_number_lt cond; have := s.toNat_lt; have := rot.isLt; have := imm.isLt; show cond.number * 0x10000000 + 0x3E00000 + s.toNat * 0x100000 + rd.val * 0x1000 + rot.toNat * 0x100 + imm.toNat < 0x100000000; omega

theorem EncodeFits.armMvnShift (cond : Cond) (s : Bool) (rd : Reg) (amt : BitVec 5) (sh : ShiftType) (rm : Reg) : EncodeFits.Statement (.armMvnShift cond s rd amt sh rm) := by
  have := cond_number_lt cond; have := s.toNat_lt; have := amt.isLt; have := shift_number_lt sh; show cond.number * 0x10000000 + 0x1E00000 + s.toNat * 0x100000 + rd.val * 0x1000 + amt.toNat * 0x80 + sh.number * 0x20 + rm.val < 0x100000000; omega

theorem EncodeFits.armMvnReg (cond : Cond) (s : Bool) (rd : Reg) (rs : Reg) (sh : ShiftType) (rm : Reg) : EncodeFits.Statement (.armMvnReg cond s rd rs sh rm) := by
  have := cond_number_lt cond; have := s.toNat_lt; have := shift_number_lt sh; show cond.number * 0x10000000 + 0x1E00010 + s.toNat * 0x100000 + rd.val * 0x1000 + rs.val * 0x100 + sh.number * 0x20 + rm.val < 0x100000000; omega

theorem EncodeFits.armUndefMedia (cond : Cond) (bits : BitVec 28) : EncodeFits.Statement (.armUndefMedia cond bits) := by
  have := cond_number_lt cond; have := bits.isLt; show cond.number * 0x10000000 + bits.toNat < 0x100000000; omega

theorem EncodeFits.armStrPre (cond : Cond) (w : Bool) (m : Mode2) (rd : Reg) : EncodeFits.Statement (.armStrPre cond w m rd) := by
  have := cond_number_lt cond; have := w.toNat_lt; have := mode2_bits_le m; show cond.number * 0x10000000 + 0x5000000 + w.toNat * 0x200000 + m.bits + rd.val * 0x1000 < 0x100000000; omega

theorem EncodeFits.armStrPost (cond : Cond) (m : Mode2) (rd : Reg) : EncodeFits.Statement (.armStrPost cond m rd) := by
  have := cond_number_lt cond; have := mode2_bits_le m; show cond.number * 0x10000000 + 0x4000000 + m.bits + rd.val * 0x1000 < 0x100000000; omega

theorem EncodeFits.armLdrPre (cond : Cond) (w : Bool) (m : Mode2) (rd : Reg) : EncodeFits.Statement (.armLdrPre cond w m rd) := by
  have := cond_number_lt cond; have := w.toNat_lt; have := mode2_bits_le m; show cond.number * 0x10000000 + 0x5100000 + w.toNat * 0x200000 + m.bits + rd.val * 0x1000 < 0x100000000; omega

theorem EncodeFits.armLdrPost (cond : Cond) (m : Mode2) (rd : Reg) : EncodeFits.Statement (.armLdrPost cond m rd) := by
  have := cond_number_lt cond; have := mode2_bits_le m; show cond.number * 0x10000000 + 0x4100000 + m.bits + rd.val * 0x1000 < 0x100000000; omega

theorem EncodeFits.armStrbPre (cond : Cond) (w : Bool) (m : Mode2) (rd : Reg) : EncodeFits.Statement (.armStrbPre cond w m rd) := by
  have := cond_number_lt cond; have := w.toNat_lt; have := mode2_bits_le m; show cond.number * 0x10000000 + 0x5400000 + w.toNat * 0x200000 + m.bits + rd.val * 0x1000 < 0x100000000; omega

theorem EncodeFits.armStrbPost (cond : Cond) (m : Mode2) (rd : Reg) : EncodeFits.Statement (.armStrbPost cond m rd) := by
  have := cond_number_lt cond; have := mode2_bits_le m; show cond.number * 0x10000000 + 0x4400000 + m.bits + rd.val * 0x1000 < 0x100000000; omega

theorem EncodeFits.armLdrbPre (cond : Cond) (w : Bool) (m : Mode2) (rd : Reg) : EncodeFits.Statement (.armLdrbPre cond w m rd) := by
  have := cond_number_lt cond; have := w.toNat_lt; have := mode2_bits_le m; show cond.number * 0x10000000 + 0x5500000 + w.toNat * 0x200000 + m.bits + rd.val * 0x1000 < 0x100000000; omega

theorem EncodeFits.armLdrbPost (cond : Cond) (m : Mode2) (rd : Reg) : EncodeFits.Statement (.armLdrbPost cond m rd) := by
  have := cond_number_lt cond; have := mode2_bits_le m; show cond.number * 0x10000000 + 0x4500000 + m.bits + rd.val * 0x1000 < 0x100000000; omega

theorem EncodeFits.armStrt (cond : Cond) (m : Mode2) (rd : Reg) : EncodeFits.Statement (.armStrt cond m rd) := by
  have := cond_number_lt cond; have := mode2_bits_le m; show cond.number * 0x10000000 + 0x4200000 + m.bits + rd.val * 0x1000 < 0x100000000; omega

theorem EncodeFits.armLdrt (cond : Cond) (m : Mode2) (rd : Reg) : EncodeFits.Statement (.armLdrt cond m rd) := by
  have := cond_number_lt cond; have := mode2_bits_le m; show cond.number * 0x10000000 + 0x4300000 + m.bits + rd.val * 0x1000 < 0x100000000; omega

theorem EncodeFits.armStrbt (cond : Cond) (m : Mode2) (rd : Reg) : EncodeFits.Statement (.armStrbt cond m rd) := by
  have := cond_number_lt cond; have := mode2_bits_le m; show cond.number * 0x10000000 + 0x4600000 + m.bits + rd.val * 0x1000 < 0x100000000; omega

theorem EncodeFits.armLdrbt (cond : Cond) (m : Mode2) (rd : Reg) : EncodeFits.Statement (.armLdrbt cond m rd) := by
  have := cond_number_lt cond; have := mode2_bits_le m; show cond.number * 0x10000000 + 0x4700000 + m.bits + rd.val * 0x1000 < 0x100000000; omega

theorem EncodeFits.armStm (cond : Cond) (p : Bool) (u : Bool) (s : Bool) (w : Bool) (rn : Reg) (list : BitVec 16) : EncodeFits.Statement (.armStm cond p u s w rn list) := by
  have := cond_number_lt cond; have := p.toNat_lt; have := u.toNat_lt; have := s.toNat_lt; have := w.toNat_lt; have := list.isLt; show cond.number * 0x10000000 + 0x8000000 + p.toNat * 0x1000000 + u.toNat * 0x800000 + s.toNat * 0x400000 + w.toNat * 0x200000 + rn.val * 0x10000 + list.toNat < 0x100000000; omega

theorem EncodeFits.armLdm (cond : Cond) (p : Bool) (u : Bool) (s : Bool) (w : Bool) (rn : Reg) (list : BitVec 16) : EncodeFits.Statement (.armLdm cond p u s w rn list) := by
  have := cond_number_lt cond; have := p.toNat_lt; have := u.toNat_lt; have := s.toNat_lt; have := w.toNat_lt; have := list.isLt; show cond.number * 0x10000000 + 0x8100000 + p.toNat * 0x1000000 + u.toNat * 0x800000 + s.toNat * 0x400000 + w.toNat * 0x200000 + rn.val * 0x10000 + list.toNat < 0x100000000; omega

theorem EncodeFits.armB (cond : Cond) (off : BitVec 24) : EncodeFits.Statement (.armB cond off) := by
  have := cond_number_lt cond; have := off.isLt; show cond.number * 0x10000000 + 0xA000000 + off.toNat < 0x100000000; omega

theorem EncodeFits.armBl (cond : Cond) (off : BitVec 24) : EncodeFits.Statement (.armBl cond off) := by
  have := cond_number_lt cond; have := off.isLt; show cond.number * 0x10000000 + 0xB000000 + off.toNat < 0x100000000; omega

theorem EncodeFits.armStc (cond : Cond) (p : Bool) (u : Bool) (n : Bool) (w : Bool) (rn : Reg) (crd : BitVec 4) (cp : BitVec 4) (off : BitVec 8) : EncodeFits.Statement (.armStc cond p u n w rn crd cp off) := by
  have := cond_number_lt cond; have := p.toNat_lt; have := u.toNat_lt; have := n.toNat_lt; have := w.toNat_lt; have := crd.isLt; have := cp.isLt; have := off.isLt; show cond.number * 0x10000000 + 0xC000000 + p.toNat * 0x1000000 + u.toNat * 0x800000 + n.toNat * 0x400000 + w.toNat * 0x200000 + rn.val * 0x10000 + crd.toNat * 0x1000 + cp.toNat * 0x100 + off.toNat < 0x100000000; omega

theorem EncodeFits.armLdc (cond : Cond) (p : Bool) (u : Bool) (n : Bool) (w : Bool) (rn : Reg) (crd : BitVec 4) (cp : BitVec 4) (off : BitVec 8) : EncodeFits.Statement (.armLdc cond p u n w rn crd cp off) := by
  have := cond_number_lt cond; have := p.toNat_lt; have := u.toNat_lt; have := n.toNat_lt; have := w.toNat_lt; have := crd.isLt; have := cp.isLt; have := off.isLt; show cond.number * 0x10000000 + 0xC100000 + p.toNat * 0x1000000 + u.toNat * 0x800000 + n.toNat * 0x400000 + w.toNat * 0x200000 + rn.val * 0x10000 + crd.toNat * 0x1000 + cp.toNat * 0x100 + off.toNat < 0x100000000; omega

theorem EncodeFits.armCdp (cond : Cond) (opc1 : BitVec 4) (crn : BitVec 4) (crd : BitVec 4) (cp : BitVec 4) (opc2 : BitVec 3) (crm : BitVec 4) : EncodeFits.Statement (.armCdp cond opc1 crn crd cp opc2 crm) := by
  have := cond_number_lt cond; have := opc1.isLt; have := crn.isLt; have := crd.isLt; have := cp.isLt; have := opc2.isLt; have := crm.isLt; show cond.number * 0x10000000 + 0xE000000 + opc1.toNat * 0x100000 + crn.toNat * 0x10000 + crd.toNat * 0x1000 + cp.toNat * 0x100 + opc2.toNat * 0x20 + crm.toNat < 0x100000000; omega

theorem EncodeFits.armMcr (cond : Cond) (opc1 : BitVec 3) (crn : BitVec 4) (rd : Reg) (cp : BitVec 4) (opc2 : BitVec 3) (crm : BitVec 4) : EncodeFits.Statement (.armMcr cond opc1 crn rd cp opc2 crm) := by
  have := cond_number_lt cond; have := opc1.isLt; have := crn.isLt; have := cp.isLt; have := opc2.isLt; have := crm.isLt; show cond.number * 0x10000000 + 0xE000010 + opc1.toNat * 0x200000 + crn.toNat * 0x10000 + rd.val * 0x1000 + cp.toNat * 0x100 + opc2.toNat * 0x20 + crm.toNat < 0x100000000; omega

theorem EncodeFits.armMrc (cond : Cond) (opc1 : BitVec 3) (crn : BitVec 4) (rd : Reg) (cp : BitVec 4) (opc2 : BitVec 3) (crm : BitVec 4) : EncodeFits.Statement (.armMrc cond opc1 crn rd cp opc2 crm) := by
  have := cond_number_lt cond; have := opc1.isLt; have := crn.isLt; have := cp.isLt; have := opc2.isLt; have := crm.isLt; show cond.number * 0x10000000 + 0xE100010 + opc1.toNat * 0x200000 + crn.toNat * 0x10000 + rd.val * 0x1000 + cp.toNat * 0x100 + opc2.toNat * 0x20 + crm.toNat < 0x100000000; omega

theorem EncodeFits.armSwi (cond : Cond) (comment : BitVec 24) : EncodeFits.Statement (.armSwi cond comment) := by
  have := cond_number_lt cond; have := comment.isLt; show cond.number * 0x10000000 + 0xF000000 + comment.toNat < 0x100000000; omega

theorem EncodeFits.thumbLslImm (off : BitVec 5) (rs : LowReg) (rd : LowReg) : EncodeFits.Statement (.thumbLslImm off rs rd) := by
  have := off.isLt; show off.toNat * 0x40 + rs.val * 0x8 + rd.val < 0x10000; omega

theorem EncodeFits.thumbLsrImm (off : BitVec 5) (rs : LowReg) (rd : LowReg) : EncodeFits.Statement (.thumbLsrImm off rs rd) := by
  have := off.isLt; show 0x800 + off.toNat * 0x40 + rs.val * 0x8 + rd.val < 0x10000; omega

theorem EncodeFits.thumbAsrImm (off : BitVec 5) (rs : LowReg) (rd : LowReg) : EncodeFits.Statement (.thumbAsrImm off rs rd) := by
  have := off.isLt; show 0x1000 + off.toNat * 0x40 + rs.val * 0x8 + rd.val < 0x10000; omega

theorem EncodeFits.thumbAddReg (rn : LowReg) (rs : LowReg) (rd : LowReg) : EncodeFits.Statement (.thumbAddReg rn rs rd) := by
  show 0x1800 + rn.val * 0x40 + rs.val * 0x8 + rd.val < 0x10000; omega

theorem EncodeFits.thumbSubReg (rn : LowReg) (rs : LowReg) (rd : LowReg) : EncodeFits.Statement (.thumbSubReg rn rs rd) := by
  show 0x1A00 + rn.val * 0x40 + rs.val * 0x8 + rd.val < 0x10000; omega

theorem EncodeFits.thumbAddImm3 (imm : BitVec 3) (rs : LowReg) (rd : LowReg) : EncodeFits.Statement (.thumbAddImm3 imm rs rd) := by
  have := imm.isLt; show 0x1C00 + imm.toNat * 0x40 + rs.val * 0x8 + rd.val < 0x10000; omega

theorem EncodeFits.thumbSubImm3 (imm : BitVec 3) (rs : LowReg) (rd : LowReg) : EncodeFits.Statement (.thumbSubImm3 imm rs rd) := by
  have := imm.isLt; show 0x1E00 + imm.toNat * 0x40 + rs.val * 0x8 + rd.val < 0x10000; omega

theorem EncodeFits.thumbMovImm (rd : LowReg) (imm : BitVec 8) : EncodeFits.Statement (.thumbMovImm rd imm) := by
  have := imm.isLt; show 0x2000 + rd.val * 0x100 + imm.toNat < 0x10000; omega

theorem EncodeFits.thumbCmpImm (rd : LowReg) (imm : BitVec 8) : EncodeFits.Statement (.thumbCmpImm rd imm) := by
  have := imm.isLt; show 0x2800 + rd.val * 0x100 + imm.toNat < 0x10000; omega

theorem EncodeFits.thumbAddImm8 (rd : LowReg) (imm : BitVec 8) : EncodeFits.Statement (.thumbAddImm8 rd imm) := by
  have := imm.isLt; show 0x3000 + rd.val * 0x100 + imm.toNat < 0x10000; omega

theorem EncodeFits.thumbSubImm8 (rd : LowReg) (imm : BitVec 8) : EncodeFits.Statement (.thumbSubImm8 rd imm) := by
  have := imm.isLt; show 0x3800 + rd.val * 0x100 + imm.toNat < 0x10000; omega

theorem EncodeFits.thumbAnd (rs : LowReg) (rd : LowReg) : EncodeFits.Statement (.thumbAnd rs rd) := by
  show 0x4000 + rs.val * 0x8 + rd.val < 0x10000; omega

theorem EncodeFits.thumbEor (rs : LowReg) (rd : LowReg) : EncodeFits.Statement (.thumbEor rs rd) := by
  show 0x4040 + rs.val * 0x8 + rd.val < 0x10000; omega

theorem EncodeFits.thumbLslReg (rs : LowReg) (rd : LowReg) : EncodeFits.Statement (.thumbLslReg rs rd) := by
  show 0x4080 + rs.val * 0x8 + rd.val < 0x10000; omega

theorem EncodeFits.thumbLsrReg (rs : LowReg) (rd : LowReg) : EncodeFits.Statement (.thumbLsrReg rs rd) := by
  show 0x40C0 + rs.val * 0x8 + rd.val < 0x10000; omega

theorem EncodeFits.thumbAsrReg (rs : LowReg) (rd : LowReg) : EncodeFits.Statement (.thumbAsrReg rs rd) := by
  show 0x4100 + rs.val * 0x8 + rd.val < 0x10000; omega

theorem EncodeFits.thumbAdc (rs : LowReg) (rd : LowReg) : EncodeFits.Statement (.thumbAdc rs rd) := by
  show 0x4140 + rs.val * 0x8 + rd.val < 0x10000; omega

theorem EncodeFits.thumbSbc (rs : LowReg) (rd : LowReg) : EncodeFits.Statement (.thumbSbc rs rd) := by
  show 0x4180 + rs.val * 0x8 + rd.val < 0x10000; omega

theorem EncodeFits.thumbRor (rs : LowReg) (rd : LowReg) : EncodeFits.Statement (.thumbRor rs rd) := by
  show 0x41C0 + rs.val * 0x8 + rd.val < 0x10000; omega

theorem EncodeFits.thumbTst (rs : LowReg) (rd : LowReg) : EncodeFits.Statement (.thumbTst rs rd) := by
  show 0x4200 + rs.val * 0x8 + rd.val < 0x10000; omega

theorem EncodeFits.thumbNeg (rs : LowReg) (rd : LowReg) : EncodeFits.Statement (.thumbNeg rs rd) := by
  show 0x4240 + rs.val * 0x8 + rd.val < 0x10000; omega

theorem EncodeFits.thumbCmp (rs : LowReg) (rd : LowReg) : EncodeFits.Statement (.thumbCmp rs rd) := by
  show 0x4280 + rs.val * 0x8 + rd.val < 0x10000; omega

theorem EncodeFits.thumbCmn (rs : LowReg) (rd : LowReg) : EncodeFits.Statement (.thumbCmn rs rd) := by
  show 0x42C0 + rs.val * 0x8 + rd.val < 0x10000; omega

theorem EncodeFits.thumbOrr (rs : LowReg) (rd : LowReg) : EncodeFits.Statement (.thumbOrr rs rd) := by
  show 0x4300 + rs.val * 0x8 + rd.val < 0x10000; omega

theorem EncodeFits.thumbMul (rs : LowReg) (rd : LowReg) : EncodeFits.Statement (.thumbMul rs rd) := by
  show 0x4340 + rs.val * 0x8 + rd.val < 0x10000; omega

theorem EncodeFits.thumbBic (rs : LowReg) (rd : LowReg) : EncodeFits.Statement (.thumbBic rs rd) := by
  show 0x4380 + rs.val * 0x8 + rd.val < 0x10000; omega

theorem EncodeFits.thumbMvn (rs : LowReg) (rd : LowReg) : EncodeFits.Statement (.thumbMvn rs rd) := by
  show 0x43C0 + rs.val * 0x8 + rd.val < 0x10000; omega

theorem EncodeFits.thumbAddHi (rs : Reg) (rd : Reg) : EncodeFits.Statement (.thumbAddHi rs rd) := by
  show 0x4400 + rs.val * 0x8 + rd.val / 8 * 0x80 + rd.val % 8 < 0x10000; omega

theorem EncodeFits.thumbCmpHi (rs : Reg) (rd : Reg) : EncodeFits.Statement (.thumbCmpHi rs rd) := by
  show 0x4500 + rs.val * 0x8 + rd.val / 8 * 0x80 + rd.val % 8 < 0x10000; omega

theorem EncodeFits.thumbMovHi (rs : Reg) (rd : Reg) : EncodeFits.Statement (.thumbMovHi rs rd) := by
  show 0x4600 + rs.val * 0x8 + rd.val / 8 * 0x80 + rd.val % 8 < 0x10000; omega

theorem EncodeFits.thumbBx (rs : Reg) : EncodeFits.Statement (.thumbBx rs) := by
  show 0x4700 + rs.val * 0x8 < 0x10000; omega

theorem EncodeFits.thumbLdrPc (rd : LowReg) (word : BitVec 8) : EncodeFits.Statement (.thumbLdrPc rd word) := by
  have := word.isLt; show 0x4800 + rd.val * 0x100 + word.toNat < 0x10000; omega

theorem EncodeFits.thumbStrReg (ro : LowReg) (rb : LowReg) (rd : LowReg) : EncodeFits.Statement (.thumbStrReg ro rb rd) := by
  show 0x5000 + ro.val * 0x40 + rb.val * 0x8 + rd.val < 0x10000; omega

theorem EncodeFits.thumbStrbReg (ro : LowReg) (rb : LowReg) (rd : LowReg) : EncodeFits.Statement (.thumbStrbReg ro rb rd) := by
  show 0x5400 + ro.val * 0x40 + rb.val * 0x8 + rd.val < 0x10000; omega

theorem EncodeFits.thumbLdrReg (ro : LowReg) (rb : LowReg) (rd : LowReg) : EncodeFits.Statement (.thumbLdrReg ro rb rd) := by
  show 0x5800 + ro.val * 0x40 + rb.val * 0x8 + rd.val < 0x10000; omega

theorem EncodeFits.thumbLdrbReg (ro : LowReg) (rb : LowReg) (rd : LowReg) : EncodeFits.Statement (.thumbLdrbReg ro rb rd) := by
  show 0x5C00 + ro.val * 0x40 + rb.val * 0x8 + rd.val < 0x10000; omega

theorem EncodeFits.thumbStrhReg (ro : LowReg) (rb : LowReg) (rd : LowReg) : EncodeFits.Statement (.thumbStrhReg ro rb rd) := by
  show 0x5200 + ro.val * 0x40 + rb.val * 0x8 + rd.val < 0x10000; omega

theorem EncodeFits.thumbLdsbReg (ro : LowReg) (rb : LowReg) (rd : LowReg) : EncodeFits.Statement (.thumbLdsbReg ro rb rd) := by
  show 0x5600 + ro.val * 0x40 + rb.val * 0x8 + rd.val < 0x10000; omega

theorem EncodeFits.thumbLdrhReg (ro : LowReg) (rb : LowReg) (rd : LowReg) : EncodeFits.Statement (.thumbLdrhReg ro rb rd) := by
  show 0x5A00 + ro.val * 0x40 + rb.val * 0x8 + rd.val < 0x10000; omega

theorem EncodeFits.thumbLdshReg (ro : LowReg) (rb : LowReg) (rd : LowReg) : EncodeFits.Statement (.thumbLdshReg ro rb rd) := by
  show 0x5E00 + ro.val * 0x40 + rb.val * 0x8 + rd.val < 0x10000; omega

theorem EncodeFits.thumbStrImm (off : BitVec 5) (rb : LowReg) (rd : LowReg) : EncodeFits.Statement (.thumbStrImm off rb rd) := by
  have := off.isLt; show 0x6000 + off.toNat * 0x40 + rb.val * 0x8 + rd.val < 0x10000; omega

theorem EncodeFits.thumbLdrImm (off : BitVec 5) (rb : LowReg) (rd : LowReg) : EncodeFits.Statement (.thumbLdrImm off rb rd) := by
  have := off.isLt; show 0x6800 + off.toNat * 0x40 + rb.val * 0x8 + rd.val < 0x10000; omega

theorem EncodeFits.thumbStrbImm (off : BitVec 5) (rb : LowReg) (rd : LowReg) : EncodeFits.Statement (.thumbStrbImm off rb rd) := by
  have := off.isLt; show 0x7000 + off.toNat * 0x40 + rb.val * 0x8 + rd.val < 0x10000; omega

theorem EncodeFits.thumbLdrbImm (off : BitVec 5) (rb : LowReg) (rd : LowReg) : EncodeFits.Statement (.thumbLdrbImm off rb rd) := by
  have := off.isLt; show 0x7800 + off.toNat * 0x40 + rb.val * 0x8 + rd.val < 0x10000; omega

theorem EncodeFits.thumbStrhImm (off : BitVec 5) (rb : LowReg) (rd : LowReg) : EncodeFits.Statement (.thumbStrhImm off rb rd) := by
  have := off.isLt; show 0x8000 + off.toNat * 0x40 + rb.val * 0x8 + rd.val < 0x10000; omega

theorem EncodeFits.thumbLdrhImm (off : BitVec 5) (rb : LowReg) (rd : LowReg) : EncodeFits.Statement (.thumbLdrhImm off rb rd) := by
  have := off.isLt; show 0x8800 + off.toNat * 0x40 + rb.val * 0x8 + rd.val < 0x10000; omega

theorem EncodeFits.thumbStrSp (rd : LowReg) (word : BitVec 8) : EncodeFits.Statement (.thumbStrSp rd word) := by
  have := word.isLt; show 0x9000 + rd.val * 0x100 + word.toNat < 0x10000; omega

theorem EncodeFits.thumbLdrSp (rd : LowReg) (word : BitVec 8) : EncodeFits.Statement (.thumbLdrSp rd word) := by
  have := word.isLt; show 0x9800 + rd.val * 0x100 + word.toNat < 0x10000; omega

theorem EncodeFits.thumbAddPc (rd : LowReg) (word : BitVec 8) : EncodeFits.Statement (.thumbAddPc rd word) := by
  have := word.isLt; show 0xA000 + rd.val * 0x100 + word.toNat < 0x10000; omega

theorem EncodeFits.thumbAddSp (rd : LowReg) (word : BitVec 8) : EncodeFits.Statement (.thumbAddSp rd word) := by
  have := word.isLt; show 0xA800 + rd.val * 0x100 + word.toNat < 0x10000; omega

theorem EncodeFits.thumbIncSp (word : BitVec 7) : EncodeFits.Statement (.thumbIncSp word) := by
  have := word.isLt; show 0xB000 + word.toNat < 0x10000; omega

theorem EncodeFits.thumbDecSp (word : BitVec 7) : EncodeFits.Statement (.thumbDecSp word) := by
  have := word.isLt; show 0xB080 + word.toNat < 0x10000; omega

theorem EncodeFits.thumbPush (r : Bool) (list : BitVec 8) : EncodeFits.Statement (.thumbPush r list) := by
  have := r.toNat_lt; have := list.isLt; show 0xB400 + r.toNat * 0x100 + list.toNat < 0x10000; omega

theorem EncodeFits.thumbPop (r : Bool) (list : BitVec 8) : EncodeFits.Statement (.thumbPop r list) := by
  have := r.toNat_lt; have := list.isLt; show 0xBC00 + r.toNat * 0x100 + list.toNat < 0x10000; omega

theorem EncodeFits.thumbUndef1011 (bits : BitVec 12) : EncodeFits.Statement (.thumbUndef1011 bits) := by
  have := bits.isLt; show 0xB000 + bits.toNat < 0x10000; omega

theorem EncodeFits.thumbStmia (rb : LowReg) (list : BitVec 8) : EncodeFits.Statement (.thumbStmia rb list) := by
  have := list.isLt; show 0xC000 + rb.val * 0x100 + list.toNat < 0x10000; omega

theorem EncodeFits.thumbLdmia (rb : LowReg) (list : BitVec 8) : EncodeFits.Statement (.thumbLdmia rb list) := by
  have := list.isLt; show 0xC800 + rb.val * 0x100 + list.toNat < 0x10000; omega

theorem EncodeFits.thumbSwi (value : BitVec 8) : EncodeFits.Statement (.thumbSwi value) := by
  have := value.isLt; show 0xDF00 + value.toNat < 0x10000; omega

theorem EncodeFits.thumbUndefCond (bits : BitVec 8) : EncodeFits.Statement (.thumbUndefCond bits) := by
  have := bits.isLt; show 0xDE00 + bits.toNat < 0x10000; omega

theorem EncodeFits.thumbBcond (c : Cond) (off : BitVec 8) : EncodeFits.Statement (.thumbBcond c off) := by
  have := cond_number_lt c; have := off.isLt; show 0xD000 + c.number * 0x100 + off.toNat < 0x10000; omega

theorem EncodeFits.thumbB (off : BitVec 11) : EncodeFits.Statement (.thumbB off) := by
  have := off.isLt; show 0xE000 + off.toNat < 0x10000; omega

theorem EncodeFits.thumbUndefBlx (bits : BitVec 11) : EncodeFits.Statement (.thumbUndefBlx bits) := by
  have := bits.isLt; show 0xE800 + bits.toNat < 0x10000; omega

theorem EncodeFits.thumbBlPrefix (off : BitVec 11) : EncodeFits.Statement (.thumbBlPrefix off) := by
  have := off.isLt; show 0xF000 + off.toNat < 0x10000; omega

theorem EncodeFits.thumbBlSuffix (off : BitVec 11) : EncodeFits.Statement (.thumbBlSuffix off) := by
  have := off.isLt; show 0xF800 + off.toNat < 0x10000; omega

end Sys2Proof.Laws
end

