-- ==== Sys2Proof/Tests/Slice0.lean ====
section
/-! SUPPORT. The model's own tests. The decode words are built bit by bit from the encodings of spec/; the vectors are
those of spec/95_test_vectors.md, named test_vector_<its id>; and a theorem named test_witness_<what> shows a state and
operands that meet the hypotheses of a statement of Certificates/Slice0/Obligations.lean, clause by clause. -/

open Sys2Proof Sys2Proof.Machine

/-! ## The states of the tests -/

/-- The vectors' fixture: pc in IWRAM, System mode, a cartridge of 4 bytes, the executable defaults. -/
def armState : State :=
  { State.reset with
    pc := 0x03000000
    dev := { Devices.reset with
      romSize := 4
      params := { Params.default with mulCarry := .executableDefault, biosTables := .executableDefault } } }

/-- The fixture in Thumb state. -/
def thumbState : State := { armState with cpsr := { armState.cpsr with t := true } }

namespace Sys2Proof.Machine

/-- A state with a word in memory. -/
def State.putWord (s : State) (a v : Word) : State := { s with dev := busWrite s.dev .word a v }

/-- A state with a halfword in memory. -/
def State.putHalf (s : State) (a v : Word) : State := { s with dev := busWrite s.dev .half a v }

/-- A state with a register of its mode set. -/
def State.withR (s : State) (i : Reg) (v : Word) : State := s.setReg i v

/-- A state with N, Z, C and V set from four bits. -/
def State.withFlags (s : State) (nzcv : BitVec 4) : State :=
  { s with
    cpsr := { s.cpsr with n := nzcv.getLsbD 3, z := nzcv.getLsbD 2, c := nzcv.getLsbD 1, v := nzcv.getLsbD 0 } }

/-- A state in another mode. -/
def State.inMode (s : State) (m : BitVec 5) : State := { s with cpsr := { s.cpsr with m := m } }

/-- A state with a saved status word. -/
def State.withSpsr (s : State) (m : BitVec 5) (w : Word) : State := s.setSpsr m (psrOfWord w)

/-- A state with the Trap policies and a supplied BIOS image. -/
def State.trapping (s : State) : State :=
  { s with
    dev := { s.dev with params := { s.dev.params with undefPolicy := .trap, swiMode := .trap, biosKind := .supplied } } }

/-- A state with WAITCNT set. -/
def State.withWaitcnt (s : State) (w : Half) : State := { s with dev := { s.dev with waitcnt := w } }

/-- Whether a state is at a pc after a number of cycles. -/
def State.goesTo (s : State) (pc : Word) (cycles : Nat) : Bool := s.pc == pc && s.stepCycles == cycles

/-- Whether N, Z, C and V are four bits. -/
def State.flagsAre (s : State) (nzcv : Nat) : Bool := (psrWord s.cpsr).toNat / 2 ^ 28 == nzcv

/-- The word at an address. -/
def State.wordAt (s : State) (a : Word) : Word := busRead s.dev { openLatch := 0, biosLatch := none } .word a

end Sys2Proof.Machine

/-- Whether an outcome is a next state that a check accepts. -/
def nextOk (o : Host.Outcome State Fault Refusal) (f : State → Bool) : Bool :=
  match o with
  | .next t => f t
  | .fault _ => false
  | .refused _ => false

/-- Whether a step gives a next state that a check accepts. -/
def stepOk (s : State) (f : State → Bool) : Bool := nextOk (step s) f

/-! ## Ill-formed terms are refused -/

/-- Bit 20 is 1: a load (30_encoding.md R202 row 7). -/
theorem test_wf_undefSignedStore : Instr.wellFormed (.armUndefSignedStore .al 0x00100FD3) = false := by decide

/-- A swap, a multiply and a long multiply are no undefined encodings (R202 row 8). -/
theorem test_wf_undefMulSpace :
    Instr.wellFormed (.armUndefMulSpace .al 0x01000090) = false ∧
    Instr.wellFormed (.armUndefMulSpace .al 0x00000291) = false ∧
    Instr.wellFormed (.armUndefMulSpace .al 0x00810392) = false := by decide

/-- BX, MRS and a halfword store are no undefined encodings (R202 row 12). -/
theorem test_wf_undefControl :
    Instr.wellFormed (.armUndefControl .al 0x012FFF1E) = false ∧
    Instr.wellFormed (.armUndefControl .al 0x010F0000) = false ∧
    Instr.wellFormed (.armUndefControl .al 0x014000B0) = false := by decide

/-- MSR with an immediate has bit 21 set (R202 row 13). -/
theorem test_wf_undefTestImm : Instr.wellFormed (.armUndefTestImm .al 0x0328F20F) = false := by decide

/-- Bit 4 is 0: a transfer (R202 row 15). -/
theorem test_wf_undefMedia : Instr.wellFormed (.armUndefMedia .al 0x07F000E0) = false := by decide

/-- Formats 13 and 14 are no undefined patterns (R210 row 15). -/
theorem test_wf_undef1011 :
    Instr.wellFormed (.thumbUndef1011 0x084) = false ∧ Instr.wellFormed (.thumbUndef1011 0x503) = false := by decide

/-- Conditions 1110 and 1111 are no conditional branches (46_thumb_branch.md R500). -/
theorem test_wf_thumbBcond :
    Instr.wellFormed (.thumbBcond .al 2) = false ∧ Instr.wellFormed (.thumbBcond .nv 2) = false := by decide

/-! ## Decoding -/

theorem test_decode_multiplies_and_bx :
    decodeWord false 0x312FFF15 = .armBx .cc 5 ∧
    decodeWord false 0x8015099C = .armMul .hi true 5 9 12 ∧
    decodeWord false 0xD0259C93 = .armMla .le false 5 9 12 3 ∧
    decodeWord false 0x30959C93 = .armUmull .cc true 5 9 12 3 ∧
    decodeWord false 0x80A59C93 = .armUmlal .hi false 5 9 12 3 ∧
    decodeWord false 0xD0D59C93 = .armSmull .le true 5 9 12 3 ∧
    decodeWord false 0x30E59C93 = .armSmlal .cc false 5 9 12 3 := by decide

theorem test_decode_swaps_halfwords_status :
    decodeWord false 0x8105909C = .armSwp .hi 5 9 12 ∧
    decodeWord false 0xD145909C = .armSwpb .le 5 9 12 ∧
    decodeWord false 0x30C75AB6 = .armStrh .cc { pre := false, up := true, wback := false, rn := 7, off := .imm 0xA6 } 5 ∧
    decodeWord false 0x813750B4 = .armLdrh .hi { pre := true, up := false, wback := true, rn := 7, off := .reg 4 } 5 ∧
    decodeWord false 0xD1B750D4 = .armLdrsb .le { pre := true, up := true, wback := true, rn := 7, off := .reg 4 } 5 ∧
    decodeWord false 0x30575AF6 = .armLdrsh .cc { pre := false, up := false, wback := false, rn := 7, off := .imm 0xA6 } 5 ∧
    decodeWord false 0x80010FD3 = .armUndefSignedStore .hi 0x10FD3 ∧
    decodeWord false 0xD1300095 = .armUndefMulSpace .le 0x1300095 ∧
    decodeWord false 0x314F5000 = .armMrs .cc true 5 ∧
    decodeWord false 0x8129F005 = .armMsrReg .hi false 0x9 5 ∧
    decodeWord false 0xD369F9A6 = .armMsrImm .le true 0x9 0x9 0xA6 ∧
    decodeWord false 0x31600070 = .armUndefControl .cc 0x1600070 ∧
    decodeWord false 0x83400005 = .armUndefTestImm .hi 0x3400005 := by decide

theorem test_decode_logic_and_subtract :
    decodeWord false 0xD20599A6 = .armAndImm .le false 5 9 0x9 0xA6 ∧
    decodeWord false 0x301599AC = .armAndShift .cc true 5 9 0x13 .lsr 12 ∧
    decodeWord false 0x80059C53 = .armAndReg .hi false 5 9 12 .asr 3 ∧
    decodeWord false 0xD23599A6 = .armEorImm .le true 5 9 0x9 0xA6 ∧
    decodeWord false 0x3025998C = .armEorShift .cc false 5 9 0x13 .lsl 12 ∧
    decodeWord false 0x80359C33 = .armEorReg .hi true 5 9 12 .lsr 3 ∧
    decodeWord false 0xD24599A6 = .armSubImm .le false 5 9 0x9 0xA6 ∧
    decodeWord false 0x305599EC = .armSubShift .cc true 5 9 0x13 .ror 12 ∧
    decodeWord false 0x80459C13 = .armSubReg .hi false 5 9 12 .lsl 3 ∧
    decodeWord false 0xD27599A6 = .armRsbImm .le true 5 9 0x9 0xA6 ∧
    decodeWord false 0x306599CC = .armRsbShift .cc false 5 9 0x13 .asr 12 ∧
    decodeWord false 0x80759C73 = .armRsbReg .hi true 5 9 12 .ror 3 := by decide

theorem test_decode_add_and_carry :
    decodeWord false 0xD28599A6 = .armAddImm .le false 5 9 0x9 0xA6 ∧
    decodeWord false 0x309599AC = .armAddShift .cc true 5 9 0x13 .lsr 12 ∧
    decodeWord false 0x80859C53 = .armAddReg .hi false 5 9 12 .asr 3 ∧
    decodeWord false 0xD2B599A6 = .armAdcImm .le true 5 9 0x9 0xA6 ∧
    decodeWord false 0x30A5998C = .armAdcShift .cc false 5 9 0x13 .lsl 12 ∧
    decodeWord false 0x80B59C33 = .armAdcReg .hi true 5 9 12 .lsr 3 ∧
    decodeWord false 0xD2C599A6 = .armSbcImm .le false 5 9 0x9 0xA6 ∧
    decodeWord false 0x30D599EC = .armSbcShift .cc true 5 9 0x13 .ror 12 ∧
    decodeWord false 0x80C59C13 = .armSbcReg .hi false 5 9 12 .lsl 3 ∧
    decodeWord false 0xD2F599A6 = .armRscImm .le true 5 9 0x9 0xA6 ∧
    decodeWord false 0x30E599CC = .armRscShift .cc false 5 9 0x13 .asr 12 ∧
    decodeWord false 0x80F59C73 = .armRscReg .hi true 5 9 12 .ror 3 := by decide

theorem test_decode_compares :
    decodeWord false 0xD31509A6 = .armTstImm .le 5 0x9 0xA6 ∧
    decodeWord false 0x311509A9 = .armTstShift .cc 5 0x13 .lsr 9 ∧
    decodeWord false 0x8115095C = .armTstReg .hi 5 9 .asr 12 ∧
    decodeWord false 0xD33509A6 = .armTeqImm .le 5 0x9 0xA6 ∧
    decodeWord false 0x31350989 = .armTeqShift .cc 5 0x13 .lsl 9 ∧
    decodeWord false 0x8135093C = .armTeqReg .hi 5 9 .lsr 12 ∧
    decodeWord false 0xD35509A6 = .armCmpImm .le 5 0x9 0xA6 ∧
    decodeWord false 0x315509E9 = .armCmpShift .cc 5 0x13 .ror 9 ∧
    decodeWord false 0x8155091C = .armCmpReg .hi 5 9 .lsl 12 ∧
    decodeWord false 0xD37509A6 = .armCmnImm .le 5 0x9 0xA6 ∧
    decodeWord false 0x317509C9 = .armCmnShift .cc 5 0x13 .asr 9 ∧
    decodeWord false 0x8175097C = .armCmnReg .hi 5 9 .ror 12 := by decide

theorem test_decode_moves :
    decodeWord false 0xD38599A6 = .armOrrImm .le false 5 9 0x9 0xA6 ∧
    decodeWord false 0x319599AC = .armOrrShift .cc true 5 9 0x13 .lsr 12 ∧
    decodeWord false 0x81859C53 = .armOrrReg .hi false 5 9 12 .asr 3 ∧
    decodeWord false 0xD3B059A6 = .armMovImm .le true 5 0x9 0xA6 ∧
    decodeWord false 0x31A05989 = .armMovShift .cc false 5 0x13 .lsl 9 ∧
    decodeWord false 0x81B0593C = .armMovReg .hi true 5 9 .lsr 12 ∧
    decodeWord false 0xD3C599A6 = .armBicImm .le false 5 9 0x9 0xA6 ∧
    decodeWord false 0x31D599EC = .armBicShift .cc true 5 9 0x13 .ror 12 ∧
    decodeWord false 0x81C59C13 = .armBicReg .hi false 5 9 12 .lsl 3 ∧
    decodeWord false 0xD3F059A6 = .armMvnImm .le true 5 0x9 0xA6 ∧
    decodeWord false 0x31E059C9 = .armMvnShift .cc false 5 0x13 .asr 9 ∧
    decodeWord false 0x81F0597C = .armMvnReg .hi true 5 9 .ror 12 := by decide

theorem test_decode_single_transfers :
    decodeWord false 0xD7F000F0 = .armUndefMedia .le 0x7F000F0 ∧
    decodeWord false 0x37A754E4 = .armStrPre .cc true { up := true, rn := 7, off := .reg 4 .ror 9 } 5 ∧
    decodeWord false 0x84075ABC = .armStrPost .hi { up := false, rn := 7, off := .imm 0xABC } 5 ∧
    decodeWord false 0xD5B75ABC = .armLdrPre .le true { up := true, rn := 7, off := .imm 0xABC } 5 ∧
    decodeWord false 0x36175484 = .armLdrPost .cc { up := false, rn := 7, off := .reg 4 .lsl 9 } 5 ∧
    decodeWord false 0x85E75ABC = .armStrbPre .hi true { up := true, rn := 7, off := .imm 0xABC } 5 ∧
    decodeWord false 0xD4475ABC = .armStrbPost .le { up := false, rn := 7, off := .imm 0xABC } 5 ∧
    decodeWord false 0x37F754A4 = .armLdrbPre .cc true { up := true, rn := 7, off := .reg 4 .lsr 9 } 5 ∧
    decodeWord false 0x84575ABC = .armLdrbPost .hi { up := false, rn := 7, off := .imm 0xABC } 5 ∧
    decodeWord false 0xD4A75ABC = .armStrt .le { up := true, rn := 7, off := .imm 0xABC } 5 ∧
    decodeWord false 0x363754C4 = .armLdrt .cc { up := false, rn := 7, off := .reg 4 .asr 9 } 5 ∧
    decodeWord false 0x84E75ABC = .armStrbt .hi { up := true, rn := 7, off := .imm 0xABC } 5 ∧
    decodeWord false 0xD4775ABC = .armLdrbt .le { up := false, rn := 7, off := .imm 0xABC } 5 := by decide

theorem test_decode_blocks_branches_coprocessor :
    decodeWord false 0x3945C5A3 = .armStm .cc true false true false 5 0xC5A3 ∧
    decodeWord false 0x88B5C5A3 = .armLdm .hi false true false true 5 0xC5A3 ∧
    decodeWord false 0xDAC0FFEE = .armB .le 0xC0FFEE ∧
    decodeWord false 0x3BC0FFEE = .armBl .cc 0xC0FFEE ∧
    decodeWord false 0x8D4599A6 = .armStc .hi true false true false 5 0x9 0x9 0xA6 ∧
    decodeWord false 0xDCB599A6 = .armLdc .le false true false true 5 0x9 0x9 0xA6 ∧
    decodeWord false 0x3E9999A9 = .armCdp .cc 0x9 0x9 0x9 0x9 0x5 0x9 ∧
    decodeWord false 0x8EA959B9 = .armMcr .hi 0x5 0x9 5 0x9 0x5 0x9 ∧
    decodeWord false 0xDEB959B9 = .armMrc .le 0x5 0x9 5 0x9 0x5 0x9 ∧
    decodeWord false 0x3FC0FFEE = .armSwi .cc 0xC0FFEE := by decide

theorem test_decode_thumb_formats_1_to_3 :
    decodeWord true 0x04EA = .thumbLslImm 0x13 5 2 ∧
    decodeWord true 0x0CEA = .thumbLsrImm 0x13 5 2 ∧
    decodeWord true 0x14EA = .thumbAsrImm 0x13 5 2 ∧
    decodeWord true 0x1957 = .thumbAddReg 5 2 7 ∧
    decodeWord true 0x1B57 = .thumbSubReg 5 2 7 ∧
    decodeWord true 0x1D6A = .thumbAddImm3 0x5 5 2 ∧
    decodeWord true 0x1F6A = .thumbSubImm3 0x5 5 2 ∧
    decodeWord true 0x25A6 = .thumbMovImm 5 0xA6 ∧
    decodeWord true 0x2DA6 = .thumbCmpImm 5 0xA6 ∧
    decodeWord true 0x35A6 = .thumbAddImm8 5 0xA6 ∧
    decodeWord true 0x3DA6 = .thumbSubImm8 5 0xA6 := by decide

theorem test_decode_thumb_format_4 :
    decodeWord true 0x402A = .thumbAnd 5 2 ∧
    decodeWord true 0x406A = .thumbEor 5 2 ∧
    decodeWord true 0x40AA = .thumbLslReg 5 2 ∧
    decodeWord true 0x40EA = .thumbLsrReg 5 2 ∧
    decodeWord true 0x412A = .thumbAsrReg 5 2 ∧
    decodeWord true 0x416A = .thumbAdc 5 2 ∧
    decodeWord true 0x41AA = .thumbSbc 5 2 ∧
    decodeWord true 0x41EA = .thumbRor 5 2 ∧
    decodeWord true 0x422A = .thumbTst 5 2 ∧
    decodeWord true 0x426A = .thumbNeg 5 2 ∧
    decodeWord true 0x42AA = .thumbCmp 5 2 ∧
    decodeWord true 0x42EA = .thumbCmn 5 2 ∧
    decodeWord true 0x432A = .thumbOrr 5 2 ∧
    decodeWord true 0x436A = .thumbMul 5 2 ∧
    decodeWord true 0x43AA = .thumbBic 5 2 ∧
    decodeWord true 0x43EA = .thumbMvn 5 2 := by decide

theorem test_decode_thumb_formats_5_to_8 :
    decodeWord true 0x44AC = .thumbAddHi 5 12 ∧
    decodeWord true 0x45AC = .thumbCmpHi 5 12 ∧
    decodeWord true 0x46AC = .thumbMovHi 5 12 ∧
    decodeWord true 0x4728 = .thumbBx 5 ∧
    decodeWord true 0x4DA6 = .thumbLdrPc 5 0xA6 ∧
    decodeWord true 0x5157 = .thumbStrReg 5 2 7 ∧
    decodeWord true 0x5557 = .thumbStrbReg 5 2 7 ∧
    decodeWord true 0x5957 = .thumbLdrReg 5 2 7 ∧
    decodeWord true 0x5D57 = .thumbLdrbReg 5 2 7 ∧
    decodeWord true 0x5357 = .thumbStrhReg 5 2 7 ∧
    decodeWord true 0x5757 = .thumbLdsbReg 5 2 7 ∧
    decodeWord true 0x5B57 = .thumbLdrhReg 5 2 7 ∧
    decodeWord true 0x5F57 = .thumbLdshReg 5 2 7 := by decide

theorem test_decode_thumb_formats_9_to_13 :
    decodeWord true 0x64EA = .thumbStrImm 0x13 5 2 ∧
    decodeWord true 0x6CEA = .thumbLdrImm 0x13 5 2 ∧
    decodeWord true 0x74EA = .thumbStrbImm 0x13 5 2 ∧
    decodeWord true 0x7CEA = .thumbLdrbImm 0x13 5 2 ∧
    decodeWord true 0x84EA = .thumbStrhImm 0x13 5 2 ∧
    decodeWord true 0x8CEA = .thumbLdrhImm 0x13 5 2 ∧
    decodeWord true 0x95A6 = .thumbStrSp 5 0xA6 ∧
    decodeWord true 0x9DA6 = .thumbLdrSp 5 0xA6 ∧
    decodeWord true 0xA5A6 = .thumbAddPc 5 0xA6 ∧
    decodeWord true 0xADA6 = .thumbAddSp 5 0xA6 ∧
    decodeWord true 0xB055 = .thumbIncSp 0x55 ∧
    decodeWord true 0xB0D5 = .thumbDecSp 0x55 := by decide

theorem test_decode_thumb_formats_14_to_19 :
    decodeWord true 0xB5A6 = .thumbPush true 0xA6 ∧
    decodeWord true 0xBCA6 = .thumbPop false 0xA6 ∧
    decodeWord true 0xB1F3 = .thumbUndef1011 0x1F3 ∧
    decodeWord true 0xC5A6 = .thumbStmia 5 0xA6 ∧
    decodeWord true 0xCDA6 = .thumbLdmia 5 0xA6 ∧
    decodeWord true 0xDFA6 = .thumbSwi 0xA6 ∧
    decodeWord true 0xDEAB = .thumbUndefCond 0xAB ∧
    decodeWord true 0xDBA6 = .thumbBcond .lt 0xA6 ∧
    decodeWord true 0xE5A3 = .thumbB 0x5A3 ∧
    decodeWord true 0xEDA3 = .thumbUndefBlx 0x5A3 ∧
    decodeWord true 0xF5A3 = .thumbBlPrefix 0x5A3 ∧
    decodeWord true 0xFDA3 = .thumbBlSuffix 0x5A3 := by decide

/-! ## The vectors of spec/95_test_vectors.md -/

/-- V-DP-01: ADDS r0, r1, r2. -/
theorem test_vector_dp_01 : stepOk (((armState.withR 1 0xFFFFFFFF).withR 2 0x00000001).putWord 0x03000000
      0xE0910002)
    (fun t => t.goesTo 0x03000004 1 && t.flagsAre 6 && t.bankedReg t.cpsr.m 0 == 0x00000000) = true := by decide

/-- V-DP-03: SUBS r0, r1, r2 (borrow). -/
theorem test_vector_dp_03 : stepOk (((armState.withR 1 0x00000000).withR 2 0x00000001).putWord 0x03000000
      0xE0510002)
    (fun t => t.goesTo 0x03000004 1 && t.flagsAre 8 && t.bankedReg t.cpsr.m 0 == 0xFFFFFFFF) = true := by decide

/-- V-DP-05: SUBS r0, r1, r2 (0x80000000 - 1). -/
theorem test_vector_dp_05 : stepOk (((armState.withR 1 0x80000000).withR 2 0x00000001).putWord 0x03000000
      0xE0510002)
    (fun t => t.goesTo 0x03000004 1 && t.flagsAre 3 && t.bankedReg t.cpsr.m 0 == 0x7FFFFFFF) = true := by decide

/-- V-DP-06: RSBS r0, r1, #0. -/
theorem test_vector_dp_06 : stepOk ((armState.withR 1 0x00000001).putWord 0x03000000 0xE2710000)
    (fun t => t.goesTo 0x03000004 1 && t.flagsAre 8 && t.bankedReg t.cpsr.m 0 == 0xFFFFFFFF) = true := by decide

/-- V-DP-07: ADCS r0, r1, r2 with C = 1. -/
theorem test_vector_dp_07 : stepOk ((((armState.withR 1 0xFFFFFFFF).withR 2 0x00000000).withFlags 2).putWord
      0x03000000 0xE0B10002)
    (fun t => t.goesTo 0x03000004 1 && t.flagsAre 6 && t.bankedReg t.cpsr.m 0 == 0x00000000) = true := by decide

/-- V-DP-09: SBCS r0, r1, r2 with C = 0, equal operands. -/
theorem test_vector_dp_09 : stepOk (((armState.withR 1 0x00000003).withR 2 0x00000003).putWord 0x03000000
      0xE0D10002)
    (fun t => t.goesTo 0x03000004 1 && t.flagsAre 8 && t.bankedReg t.cpsr.m 0 == 0xFFFFFFFF) = true := by decide

/-- V-DP-10: RSCS r0, r1, r2 with C = 1. -/
theorem test_vector_dp_10 : stepOk ((((armState.withR 1 0x00000003).withR 2 0x00000005).withFlags 2).putWord
      0x03000000 0xE0F10002)
    (fun t => t.goesTo 0x03000004 1 && t.flagsAre 2 && t.bankedReg t.cpsr.m 0 == 0x00000002) = true := by decide

/-- V-DP-11: ANDS r0, r1, #0xFF (rot = 0 keeps C). -/
theorem test_vector_dp_11 : stepOk (((armState.withR 1 0x00001234).withFlags 2).putWord 0x03000000 0xE21100FF)
    (fun t => t.goesTo 0x03000004 1 && t.flagsAre 2 && t.bankedReg t.cpsr.m 0 == 0x00000034) = true := by decide

/-- V-DP-12: EORS r0, r1, r2. -/
theorem test_vector_dp_12 : stepOk ((((armState.withR 1 0xF0F0F0F0).withR 2 0xF0F0F0F0).withFlags 11).putWord
      0x03000000 0xE0310002)
    (fun t => t.goesTo 0x03000004 1 && t.flagsAre 7 && t.bankedReg t.cpsr.m 0 == 0x00000000) = true := by decide

/-- V-DP-13: TST r1, #0x80000000 (rot != 0 sets C = bit 31). -/
theorem test_vector_dp_13 : stepOk ((armState.withR 1 0x80000000).putWord 0x03000000 0xE3110102)
    (fun t => t.goesTo 0x03000004 1 && t.flagsAre 10) = true := by decide

/-- V-DP-14: TEQ r1, r1. -/
theorem test_vector_dp_14 : stepOk ((armState.withR 1 0x00000055).putWord 0x03000000 0xE1310001)
    (fun t => t.goesTo 0x03000004 1 && t.flagsAre 4) = true := by decide

/-- V-DP-15: CMP r1, #1. -/
theorem test_vector_dp_15 : stepOk ((armState.withR 1 0x00000000).putWord 0x03000000 0xE3510001)
    (fun t => t.goesTo 0x03000004 1 && t.flagsAre 8) = true := by decide

/-- V-DP-16: CMN r1, r2. -/
theorem test_vector_dp_16 : stepOk (((armState.withR 1 0x00000001).withR 2 0xFFFFFFFF).putWord 0x03000000
      0xE1710002)
    (fun t => t.goesTo 0x03000004 1 && t.flagsAre 6) = true := by decide

/-- V-DP-17: ORRS r0, r1, r2. -/
theorem test_vector_dp_17 : stepOk (((armState.withR 1 0x0000000F).withR 2 0x000000F0).putWord 0x03000000
      0xE1910002)
    (fun t => t.goesTo 0x03000004 1 && t.flagsAre 0 && t.bankedReg t.cpsr.m 0 == 0x000000FF) = true := by decide

/-- V-DP-22: MOVS r0, r1, RRX (encoded ROR #0). -/
theorem test_vector_dp_22 : stepOk (((armState.withR 1 0x00000001).withFlags 2).putWord 0x03000000 0xE1B00061)
    (fun t => t.goesTo 0x03000004 1 && t.flagsAre 10 && t.bankedReg t.cpsr.m 0 == 0x80000000) = true := by decide

/-- V-DP-25: MOVS r0, r1, LSL r2 with r2 = 33. -/
theorem test_vector_dp_25 : stepOk ((((armState.withR 1 0x00000001).withR 2 0x00000021).withFlags 2).putWord
      0x03000000 0xE1B00211)
    (fun t => t.goesTo 0x03000004 2 && t.flagsAre 4 && t.bankedReg t.cpsr.m 0 == 0x00000000) = true := by decide

/-- V-DP-28: MOVS r0, r1, ROR r2 with r2 = 32. -/
theorem test_vector_dp_28 : stepOk (((armState.withR 1 0x80000000).withR 2 0x00000020).putWord 0x03000000
      0xE1B00271)
    (fun t => t.goesTo 0x03000004 2 && t.flagsAre 10 && t.bankedReg t.cpsr.m 0 == 0x80000000) = true := by decide

/-- V-DP-29: MOVS r0, #0x80000000 (imm8 2, rot 1). -/
theorem test_vector_dp_29 : stepOk (armState.putWord 0x03000000 0xE3B00102)
    (fun t => t.goesTo 0x03000004 1 && t.flagsAre 10 && t.bankedReg t.cpsr.m 0 == 0x80000000) = true := by decide

/-- V-DP-30: BICS r0, r1, #0xFF. -/
theorem test_vector_dp_30 : stepOk ((armState.withR 1 0x000001FF).putWord 0x03000000 0xE3D100FF)
    (fun t => t.goesTo 0x03000004 1 && t.flagsAre 0 && t.bankedReg t.cpsr.m 0 == 0x00000100) = true := by decide

/-- V-DP-31: MVNS r0, #0. -/
theorem test_vector_dp_31 : stepOk (armState.putWord 0x03000000 0xE3F00000)
    (fun t => t.goesTo 0x03000004 1 && t.flagsAre 8 && t.bankedReg t.cpsr.m 0 == 0xFFFFFFFF) = true := by decide

/-- V-DP-32: ADD r0, pc, #0 (pc + 8). -/
theorem test_vector_dp_32 : stepOk (armState.putWord 0x03000000 0xE28F0000)
    (fun t => t.goesTo 0x03000004 1 && t.flagsAre 0 && t.bankedReg t.cpsr.m 0 == 0x03000008) = true := by decide

/-- V-DP-33: ADD r0, pc, pc, LSL r1 with r1 = 0 (pc + 12 twice). -/
theorem test_vector_dp_33 : stepOk ((armState.withR 1 0x00000000).putWord 0x03000000 0xE08F011F)
    (fun t => t.goesTo 0x03000004 2 && t.flagsAre 0 && t.bankedReg t.cpsr.m 0 == 0x06000018) = true := by decide

/-- V-DP-35: MOVS pc, lr in svc mode (PSR restore). -/
theorem test_vector_dp_35 : stepOk ((((armState.inMode modeSvc).withR 14 0x03000100).withSpsr modeSvc
      0x6000001F).putWord 0x03000000 0xE1B0F00E)
    (fun t => t.goesTo 0x03000100 3 && t.flagsAre 6 && t.bankedReg t.cpsr.m 13 == 0x03007F00 && t.bankedReg t.cpsr.m
      14 == 0x00000000 && (psrWord t.cpsr).toNat % 256 == 0x1F) = true := by decide

/-- V-DP-36: ADDS r0, r1, r2 with condition NE failing (Z = 1). -/
theorem test_vector_dp_36 : stepOk ((((armState.withR 1 0x00000001).withR 2 0x00000002).withFlags 4).putWord
      0x03000000 0x10910002)
    (fun t => t.goesTo 0x03000004 1 && t.flagsAre 4 && t.bankedReg t.cpsr.m 0 == 0x00000000) = true := by decide

/-- V-DP-37: MRS r0, CPSR. -/
theorem test_vector_dp_37 : stepOk ((armState.withFlags 10).putWord 0x03000000 0xE10F0000)
    (fun t => t.goesTo 0x03000004 1 && t.flagsAre 10 && t.bankedReg t.cpsr.m 0 == 0xA000001F) = true := by decide

/-- V-DP-38: MSR CPSR_f, #0xF0000000. -/
theorem test_vector_dp_38 : stepOk (armState.putWord 0x03000000 0xE328F20F)
    (fun t => t.goesTo 0x03000004 1 && t.flagsAre 15) = true := by decide

/-- V-DP-39: MSR CPSR_c, r0 (System to IRQ). -/
theorem test_vector_dp_39 : stepOk ((armState.withR 0 0x00000092).putWord 0x03000000 0xE121F000)
    (fun t => t.goesTo 0x03000004 1 && t.flagsAre 0 && t.bankedReg t.cpsr.m 13 == 0x03007FA0 && (psrWord
      t.cpsr).toNat % 256 == 0x92 && t.spsrOf modeIrq == some (psrOfWord 0x00000000) && t.bankedReg modeIrq 13 ==
      0x03007FA0 && t.bankedReg modeIrq 14 == 0x00000000 && t.cpsr.m == modeIrq) = true := by decide

/-- V-DP-40: MSR CPSR_c, r0 in User mode (ignored). -/
theorem test_vector_dp_40 : stepOk (((armState.inMode modeUsr).withR 0 0x00000092).putWord 0x03000000
      0xE121F000)
    (fun t => t.goesTo 0x03000004 1 && t.flagsAre 0 && t.cpsr.m == modeUsr) = true := by decide

/-- V-DP-41: MRS r0, SPSR in System mode (reads CPSR). -/
theorem test_vector_dp_41 : stepOk ((armState.withFlags 4).putWord 0x03000000 0xE14F0000)
    (fun t => t.goesTo 0x03000004 1 && t.flagsAre 4 && t.bankedReg t.cpsr.m 0 == 0x4000001F) = true := by decide

/-- V-DP-42: MOVNV r0, #1. -/
theorem test_vector_dp_42 : stepOk (armState.putWord 0x03000000 0xF3A00001)
    (fun t => t.goesTo 0x03000004 1 && t.flagsAre 0) = true := by decide

/-- V-DP-43: undefined 0xF7F000F0 (cond NV) under Trap. -/
theorem test_vector_dp_43 : stepOk ((armState.trapping).putWord 0x03000000 0xF7F000F0)
    (fun t => t.goesTo 0x03000004 1 && t.flagsAre 0) = true := by decide

/-- V-MUL-02: MULS r0, r1, r2 (zero). -/
theorem test_vector_mul_02 : stepOk ((((armState.withR 1 0x00000000).withR 2 0x00000007).withFlags 11).putWord
      0x03000000 0xE0100291)
    (fun t => t.goesTo 0x03000004 2 && t.flagsAre 7 && t.bankedReg t.cpsr.m 0 == 0x00000000) = true := by decide

/-- V-MUL-04: MUL r0, r1, r2 with r2 = 0xFFFFFFFF. -/
theorem test_vector_mul_04 : stepOk (((armState.withR 1 0x00000003).withR 2 0xFFFFFFFF).putWord 0x03000000
      0xE0000291)
    (fun t => t.goesTo 0x03000004 2 && t.flagsAre 0 && t.bankedReg t.cpsr.m 0 == 0xFFFFFFFD) = true := by decide

/-- V-MUL-05: MLA r0, r1, r2, r3. -/
theorem test_vector_mul_05 : stepOk ((((armState.withR 1 0x00000006).withR 2 0x00000007).withR 3
      0x00000064).putWord 0x03000000 0xE0203291)
    (fun t => t.goesTo 0x03000004 3 && t.flagsAre 0 && t.bankedReg t.cpsr.m 0 == 0x0000008E) = true := by decide

/-- V-MUL-06: UMULL r0, r1, r2, r3. -/
theorem test_vector_mul_06 : stepOk (((armState.withR 2 0xFFFFFFFF).withR 3 0xFFFFFFFF).putWord 0x03000000
      0xE0810392)
    (fun t => t.goesTo 0x03000004 6 && t.flagsAre 0 && t.bankedReg t.cpsr.m 0 == 0x00000001 && t.bankedReg t.cpsr.m
      1 == 0xFFFFFFFE) = true := by decide

/-- V-MUL-07: UMLAL r0, r1, r2, r3. -/
theorem test_vector_mul_07 : stepOk (((((armState.withR 0 0x00000002).withR 1 0x00000000).withR 2
      0xFFFFFFFF).withR 3 0x00000002).putWord 0x03000000 0xE0A10392)
    (fun t => t.goesTo 0x03000004 4 && t.flagsAre 0 && t.bankedReg t.cpsr.m 0 == 0x00000000 && t.bankedReg t.cpsr.m
      1 == 0x00000002) = true := by decide

/-- V-MUL-08: SMULL r0, r1, r2, r3. -/
theorem test_vector_mul_08 : stepOk (((armState.withR 2 0xFFFFFFFF).withR 3 0xFFFFFFFF).putWord 0x03000000
      0xE0C10392)
    (fun t => t.goesTo 0x03000004 3 && t.flagsAre 0 && t.bankedReg t.cpsr.m 0 == 0x00000001) = true := by decide

/-- V-MUL-09: SMULLS r0, r1, r2, r3 (negative). -/
theorem test_vector_mul_09 : stepOk (((armState.withR 2 0xFFFFFFFE).withR 3 0x00000003).putWord 0x03000000
      0xE0D10392)
    (fun t => t.goesTo 0x03000004 3 && t.flagsAre 8 && t.bankedReg t.cpsr.m 0 == 0xFFFFFFFA && t.bankedReg t.cpsr.m
      1 == 0xFFFFFFFF) = true := by decide

/-- V-MUL-10: SMLAL r0, r1, r2, r3. -/
theorem test_vector_mul_10 : stepOk (((((armState.withR 0 0x00000001).withR 1 0x00000000).withR 2
      0xFFFFFFFF).withR 3 0x00000001).putWord 0x03000000 0xE0E10392)
    (fun t => t.goesTo 0x03000004 4 && t.flagsAre 0 && t.bankedReg t.cpsr.m 0 == 0x00000000) = true := by decide

/-- V-LS-02: LDR r0, [r1] (address + 1, rotated). -/
theorem test_vector_ls_02 : stepOk (((armState.withR 1 0x03000101).putWord 0x03000100 0x44332211).putWord
      0x03000000 0xE5910000)
    (fun t => t.goesTo 0x03000004 3 && t.flagsAre 0 && t.bankedReg t.cpsr.m 0 == 0x11443322) = true := by decide

/-- V-LS-05: LDR r0, [r1], #4 (post-index). -/
theorem test_vector_ls_05 : stepOk (((armState.withR 1 0x03000100).putWord 0x03000100 0x44332211).putWord
      0x03000000 0xE4910004)
    (fun t => t.goesTo 0x03000004 3 && t.flagsAre 0 && t.bankedReg t.cpsr.m 0 == 0x44332211 && t.bankedReg t.cpsr.m
      1 == 0x03000104) = true := by decide

/-- V-LS-06: LDR r1, [r1], #4 (Rd = Rn: the load wins). -/
theorem test_vector_ls_06 : stepOk (((armState.withR 1 0x03000100).putWord 0x03000100 0x44332211).putWord
      0x03000000 0xE4911004)
    (fun t => t.goesTo 0x03000004 3 && t.flagsAre 0 && t.bankedReg t.cpsr.m 1 == 0x44332211) = true := by decide

/-- V-LS-08: LDR pc, [r1] (branch). -/
theorem test_vector_ls_08 : stepOk (((armState.withR 1 0x03000100).putWord 0x03000100 0x03000203).putWord
      0x03000000 0xE591F000)
    (fun t => t.goesTo 0x03000200 5 && t.flagsAre 0) = true := by decide

/-- V-LS-09: LDRB r0, [r1, #3]. -/
theorem test_vector_ls_09 : stepOk (((armState.withR 1 0x03000100).putWord 0x03000100 0x44332211).putWord
      0x03000000 0xE5D10003)
    (fun t => t.goesTo 0x03000004 3 && t.flagsAre 0 && t.bankedReg t.cpsr.m 0 == 0x00000044) = true := by decide

/-- V-LS-10: STR r0, [r1] (misaligned address stores aligned). -/
theorem test_vector_ls_10 : stepOk (((armState.withR 0 0xAABBCCDD).withR 1 0x03000102).putWord 0x03000000
      0xE5810000)
    (fun t => t.goesTo 0x03000004 2 && t.flagsAre 0 && t.wordAt 0x03000100 == 0xAABBCCDD) = true := by decide

/-- V-LS-11: STR pc, [r1] (stores pc + 12). -/
theorem test_vector_ls_11 : stepOk ((armState.withR 1 0x03000100).putWord 0x03000000 0xE581F000)
    (fun t => t.goesTo 0x03000004 2 && t.flagsAre 0 && t.wordAt 0x03000100 == 0x0300000C) = true := by decide

/-- V-LS-12: STRB r0, [r1, #1]. -/
theorem test_vector_ls_12 : stepOk ((((armState.withR 0 0x000001FF).withR 1 0x03000100).putWord 0x03000100
      0x44332211).putWord 0x03000000 0xE5C10001)
    (fun t => t.goesTo 0x03000004 2 && t.flagsAre 0 && t.wordAt 0x03000100 == 0x4433FF11) = true := by decide

/-- V-LS-13: STRB r0, [r1] to palette (widened). -/
theorem test_vector_ls_13 : stepOk (((armState.withR 0 0x000000AB).withR 1 0x05000001).putWord 0x03000000
      0xE5C10000)
    (fun t => t.goesTo 0x03000004 2 && t.flagsAre 0 && t.wordAt 0x05000000 == 0x0000ABAB) = true := by decide

/-- V-LS-17: LDRH r0, [r1] (odd, rotated). -/
theorem test_vector_ls_17 : stepOk (((armState.withR 1 0x03000101).putWord 0x03000100 0x44332211).putWord
      0x03000000 0xE1D100B0)
    (fun t => t.goesTo 0x03000004 3 && t.flagsAre 0 && t.bankedReg t.cpsr.m 0 == 0x11000022) = true := by decide

/-- V-LS-18: LDRSB r0, [r1]. -/
theorem test_vector_ls_18 : stepOk (((armState.withR 1 0x03000100).putWord 0x03000100 0x000000FE).putWord
      0x03000000 0xE1D100D0)
    (fun t => t.goesTo 0x03000004 3 && t.flagsAre 0 && t.bankedReg t.cpsr.m 0 == 0xFFFFFFFE) = true := by decide

/-- V-LS-19: LDRSH r0, [r1] (even). -/
theorem test_vector_ls_19 : stepOk (((armState.withR 1 0x03000100).putWord 0x03000100 0x00008000).putWord
      0x03000000 0xE1D100F0)
    (fun t => t.goesTo 0x03000004 3 && t.flagsAre 0 && t.bankedReg t.cpsr.m 0 == 0xFFFF8000) = true := by decide

/-- V-LS-20: LDRSH r0, [r1] (odd: signed byte). -/
theorem test_vector_ls_20 : stepOk (((armState.withR 1 0x03000101).putWord 0x03000100 0x00008000).putWord
      0x03000000 0xE1D100F0)
    (fun t => t.goesTo 0x03000004 3 && t.flagsAre 0 && t.bankedReg t.cpsr.m 0 == 0xFFFFFF80) = true := by decide

/-- V-LS-21: STRH r0, [r1, #2]. -/
theorem test_vector_ls_21 : stepOk (((armState.withR 0 0x12345678).withR 1 0x03000100).putWord 0x03000000
      0xE1C100B2)
    (fun t => t.goesTo 0x03000004 2 && t.flagsAre 0 && t.wordAt 0x03000100 == 0x56780000) = true := by decide

/-- V-LS-24: LDRH r0, [r1] from ROM beyond ROM_SIZE. -/
theorem test_vector_ls_24 : stepOk ((armState.withR 1 0x08001000).putWord 0x03000000 0xE1D100B0)
    (fun t => t.goesTo 0x03000004 7 && t.flagsAre 0 && t.bankedReg t.cpsr.m 0 == 0x00000800) = true := by decide

/-- V-LS-29: LDMIA r0!, {r0, r1} (base in list: load wins). -/
theorem test_vector_ls_29 : stepOk ((((armState.withR 0 0x03000100).putWord 0x03000100 0x0300AAAA).putWord
      0x03000104 0x00000002).putWord 0x03000000 0xE8B00003)
    (fun t => t.goesTo 0x03000004 4 && t.flagsAre 0 && t.bankedReg t.cpsr.m 0 == 0x0300AAAA && t.bankedReg t.cpsr.m
      1 == 0x00000002) = true := by decide

/-- V-LS-31: STMIA r1!, {r0, r1} (base not lowest: new value). -/
theorem test_vector_ls_31 : stepOk (((armState.withR 0 0x00000005).withR 1 0x03000100).putWord 0x03000000
      0xE8A10003)
    (fun t => t.goesTo 0x03000004 3 && t.flagsAre 0 && t.bankedReg t.cpsr.m 1 == 0x03000108 && t.wordAt 0x03000100
      == 0x00000005 && t.wordAt 0x03000104 == 0x03000108) = true := by decide

/-- V-LS-35: STMIA r0, {r13, r14}^ in IRQ mode (user bank). -/
theorem test_vector_ls_35 : stepOk (((((armState.inMode modeIrq).withR 0 0x03000100).withR 13 0x03007FA0).withR
      14 0x00001234).putWord 0x03000000 0xE8C06000)
    (fun t => t.goesTo 0x03000004 3 && t.flagsAre 0 && t.wordAt 0x03000100 == 0x03007F00 && t.spsrOf modeIrq == some
      (psrOfWord 0x00000000) && t.bankedReg modeIrq 13 == 0x03007FA0 && t.bankedReg modeIrq 14 == 0x00001234 &&
      t.cpsr.m == modeIrq) = true := by decide

/-- V-LS-36: LDMFD sp!, {r0, pc}^ in IRQ mode (exception return). -/
theorem test_vector_ls_36 : stepOk ((((((armState.inMode modeIrq).withR 13 0x03007F90).withSpsr modeIrq
      0x0000003F).putWord 0x03007F90 0x00000077).putWord 0x03007F94 0x03000301).putWord 0x03000000 0xE8FD8001)
    (fun t => t.goesTo 0x03000300 6 && t.flagsAre 0 && t.bankedReg t.cpsr.m 0 == 0x00000077 && t.bankedReg t.cpsr.m
      13 == 0x03007F00 && (psrWord t.cpsr).toNat % 256 == 0x3F && t.bankedReg modeIrq 13 == 0x03007F98) = true := by
      decide

/-- V-LS-37: SWP r0, r1, [r2]. -/
theorem test_vector_ls_37 : stepOk ((((armState.withR 1 0x0000CAFE).withR 2 0x03000100).putWord 0x03000100
      0x44332211).putWord 0x03000000 0xE1020091)
    (fun t => t.goesTo 0x03000004 4 && t.flagsAre 0 && t.bankedReg t.cpsr.m 0 == 0x44332211 && t.wordAt 0x03000100
      == 0x0000CAFE) = true := by decide

/-- V-LS-38: SWPB r0, r1, [r2]. -/
theorem test_vector_ls_38 : stepOk ((((armState.withR 1 0x000001FE).withR 2 0x03000101).putWord 0x03000100
      0x44332211).putWord 0x03000000 0xE1420091)
    (fun t => t.goesTo 0x03000004 4 && t.flagsAre 0 && t.bankedReg t.cpsr.m 0 == 0x00000022 && t.wordAt 0x03000100
      == 0x4433FE11) = true := by decide

/-- V-BR-01: B . + 0x100. -/
theorem test_vector_br_01 : stepOk (armState.putWord 0x03000000 0xEA00003E)
    (fun t => t.goesTo 0x03000100 3 && t.flagsAre 0) = true := by decide

/-- V-BR-02: BL . - 0x100 (target 0x02FFFF00 in the EWRAM region). -/
theorem test_vector_br_02 : stepOk (armState.putWord 0x03000000 0xEBFFFFBE)
    (fun t => t.goesTo 0x02FFFF00 13 && t.flagsAre 0 && t.bankedReg t.cpsr.m 14 == 0x03000004) = true := by decide

/-- V-BR-03: BX r0 to Thumb. -/
theorem test_vector_br_03 : stepOk ((armState.withR 0 0x03000101).putWord 0x03000000 0xE12FFF10)
    (fun t => t.goesTo 0x03000100 3 && t.flagsAre 0 && t.bankedReg t.cpsr.m 0 == 0x03000101 && (psrWord
      t.cpsr).toNat % 256 == 0x3F) = true := by decide

/-- V-BR-05: BLNE with Z = 1 (not taken). -/
theorem test_vector_br_05 : stepOk ((armState.withFlags 4).putWord 0x03000000 0x1B00003E)
    (fun t => t.goesTo 0x03000004 1 && t.flagsAre 4) = true := by decide

/-- V-BR-06: SWI 0x06 under HLE (Div). -/
theorem test_vector_br_06 : stepOk (((armState.withR 0 0xFFFFFB2E).withR 1 0x0000000A).putWord 0x03000000
      0xEF060000)
    (fun t => t.goesTo 0x03000004 3 && t.flagsAre 0 && t.bankedReg t.cpsr.m 0 == 0xFFFFFF85 && t.bankedReg t.cpsr.m
      1 == 0xFFFFFFFC && t.bankedReg t.cpsr.m 3 == 0x0000007B) = true := by decide

/-- V-BR-09: SWI 0x12 under Trap. -/
theorem test_vector_br_09 : stepOk (((armState.withFlags 2).trapping).putWord 0x03000000 0xEF120000)
    (fun t => t.goesTo 0x00000008 3 && t.flagsAre 2 && t.bankedReg t.cpsr.m 13 == 0x03007FE0 && t.bankedReg t.cpsr.m
      14 == 0x03000004 && (psrWord t.cpsr).toNat % 256 == 0x93 && t.spsrOf modeSvc == some (psrOfWord 0x2000001F) &&
      t.bankedReg modeSvc 13 == 0x03007FE0 && t.bankedReg modeSvc 14 == 0x03000004 && t.cpsr.m == modeSvc) = true :=
      by decide

/-- V-BR-11: undefined 0xE7F000F0 under Trap. -/
theorem test_vector_br_11 : stepOk ((armState.trapping).putWord 0x03000000 0xE7F000F0)
    (fun t => t.goesTo 0x00000004 3 && t.flagsAre 0 && t.bankedReg t.cpsr.m 13 == 0x00000000 && t.bankedReg t.cpsr.m
      14 == 0x03000004 && (psrWord t.cpsr).toNat % 256 == 0x9B && t.spsrOf modeUnd == some (psrOfWord 0x0000001F) &&
      t.bankedReg modeUnd 13 == 0x00000000 && t.bankedReg modeUnd 14 == 0x03000004 && t.cpsr.m == modeUnd) = true :=
      by decide

/-- V-BR-12: CDP (coprocessor, unrecognized) under Nop. -/
theorem test_vector_br_12 : stepOk (armState.putWord 0x03000000 0xEE000100)
    (fun t => t.goesTo 0x03000004 1 && t.flagsAre 0) = true := by decide

/-- V-T-01: LSL r0, r1, #4. -/
theorem test_vector_t_01 : stepOk ((thumbState.withR 1 0x10000001).putHalf 0x03000000 0x0108)
    (fun t => t.goesTo 0x03000002 1 && t.flagsAre 2 && t.bankedReg t.cpsr.m 0 == 0x00000010) = true := by decide

/-- V-T-02: LSR r0, r1, #0 (shift by 32). -/
theorem test_vector_t_02 : stepOk ((thumbState.withR 1 0x80000000).putHalf 0x03000000 0x0808)
    (fun t => t.goesTo 0x03000002 1 && t.flagsAre 6 && t.bankedReg t.cpsr.m 0 == 0x00000000) = true := by decide

/-- V-T-03: ASR r0, r1, #0 (shift by 32). -/
theorem test_vector_t_03 : stepOk ((thumbState.withR 1 0x80000000).putHalf 0x03000000 0x1008)
    (fun t => t.goesTo 0x03000002 1 && t.flagsAre 10 && t.bankedReg t.cpsr.m 0 == 0xFFFFFFFF) = true := by decide

/-- V-T-04: ADD r0, r1, r2. -/
theorem test_vector_t_04 : stepOk (((thumbState.withR 1 0xFFFFFFFF).withR 2 0x00000001).putHalf 0x03000000
      0x1888)
    (fun t => t.goesTo 0x03000002 1 && t.flagsAre 6 && t.bankedReg t.cpsr.m 0 == 0x00000000) = true := by decide

/-- V-T-05: SUB r0, r1, #1. -/
theorem test_vector_t_05 : stepOk ((thumbState.withR 1 0x00000000).putHalf 0x03000000 0x1E48)
    (fun t => t.goesTo 0x03000002 1 && t.flagsAre 8 && t.bankedReg t.cpsr.m 0 == 0xFFFFFFFF) = true := by decide

/-- V-T-06: ADD r0, r1, #0 (MOV, clears C and V). -/
theorem test_vector_t_06 : stepOk (((thumbState.withR 1 0x80000000).withFlags 3).putHalf 0x03000000 0x1C08)
    (fun t => t.goesTo 0x03000002 1 && t.flagsAre 8 && t.bankedReg t.cpsr.m 0 == 0x80000000) = true := by decide

/-- V-T-07: MOV r0, #0. -/
theorem test_vector_t_07 : stepOk (((thumbState.withR 0 0x00000005).withFlags 10).putHalf 0x03000000 0x2000)
    (fun t => t.goesTo 0x03000002 1 && t.flagsAre 6 && t.bankedReg t.cpsr.m 0 == 0x00000000) = true := by decide

/-- V-T-08: CMP r0, #1. -/
theorem test_vector_t_08 : stepOk ((thumbState.withR 0 0x00000000).putHalf 0x03000000 0x2801)
    (fun t => t.goesTo 0x03000002 1 && t.flagsAre 8) = true := by decide

/-- V-T-09: ADD r0, #1 (overflow). -/
theorem test_vector_t_09 : stepOk ((thumbState.withR 0 0x7FFFFFFF).putHalf 0x03000000 0x3001)
    (fun t => t.goesTo 0x03000002 1 && t.flagsAre 9 && t.bankedReg t.cpsr.m 0 == 0x80000000) = true := by decide

/-- V-T-10: LSL r0, r1 with r1 = 32. -/
theorem test_vector_t_10 : stepOk (((thumbState.withR 0 0x00000001).withR 1 0x00000020).putHalf 0x03000000
      0x4088)
    (fun t => t.goesTo 0x03000002 2 && t.flagsAre 6 && t.bankedReg t.cpsr.m 0 == 0x00000000) = true := by decide

/-- V-T-11: LSR r0, r1 with r1 = 0 (C kept). -/
theorem test_vector_t_11 : stepOk ((((thumbState.withR 0 0x80000000).withR 1 0x00000000).withFlags 2).putHalf
      0x03000000 0x40C8)
    (fun t => t.goesTo 0x03000002 2 && t.flagsAre 10 && t.bankedReg t.cpsr.m 0 == 0x80000000) = true := by decide

/-- V-T-12: ASR r0, r1 with r1 = 40. -/
theorem test_vector_t_12 : stepOk (((thumbState.withR 0 0x80000000).withR 1 0x00000028).putHalf 0x03000000
      0x4108)
    (fun t => t.goesTo 0x03000002 2 && t.flagsAre 10 && t.bankedReg t.cpsr.m 0 == 0xFFFFFFFF) = true := by decide

/-- V-T-13: ADC r0, r1 with C = 1. -/
theorem test_vector_t_13 : stepOk ((((thumbState.withR 0 0xFFFFFFFF).withR 1 0x00000000).withFlags 2).putHalf
      0x03000000 0x4148)
    (fun t => t.goesTo 0x03000002 1 && t.flagsAre 6 && t.bankedReg t.cpsr.m 0 == 0x00000000) = true := by decide

/-- V-T-14: SBC r0, r1 with C = 0. -/
theorem test_vector_t_14 : stepOk (((thumbState.withR 0 0x00000005).withR 1 0x00000003).putHalf 0x03000000
      0x4188)
    (fun t => t.goesTo 0x03000002 1 && t.flagsAre 2 && t.bankedReg t.cpsr.m 0 == 0x00000001) = true := by decide

/-- V-T-15: ROR r0, r1 with r1 = 1. -/
theorem test_vector_t_15 : stepOk (((thumbState.withR 0 0x00000001).withR 1 0x00000001).putHalf 0x03000000
      0x41C8)
    (fun t => t.goesTo 0x03000002 2 && t.flagsAre 10 && t.bankedReg t.cpsr.m 0 == 0x80000000) = true := by decide

/-- V-T-16: NEG r0, r1 with r1 = 0x80000000. -/
theorem test_vector_t_16 : stepOk ((thumbState.withR 1 0x80000000).putHalf 0x03000000 0x4248)
    (fun t => t.goesTo 0x03000002 1 && t.flagsAre 9 && t.bankedReg t.cpsr.m 0 == 0x80000000) = true := by decide

/-- V-T-17: NEG r0, r1 with r1 = 0. -/
theorem test_vector_t_17 : stepOk ((thumbState.withR 1 0x00000000).putHalf 0x03000000 0x4248)
    (fun t => t.goesTo 0x03000002 1 && t.flagsAre 6 && t.bankedReg t.cpsr.m 0 == 0x00000000) = true := by decide

/-- V-T-18: MUL r0, r1. -/
theorem test_vector_t_18 : stepOk (((thumbState.withR 0 0x00000006).withR 1 0x00000007).putHalf 0x03000000
      0x4348)
    (fun t => t.goesTo 0x03000002 2 && t.flagsAre 0 && t.bankedReg t.cpsr.m 0 == 0x0000002A) = true := by decide

/-- V-T-19: MVN r0, r1. -/
theorem test_vector_t_19 : stepOk ((thumbState.withR 1 0x00000000).putHalf 0x03000000 0x43C8)
    (fun t => t.goesTo 0x03000002 1 && t.flagsAre 8 && t.bankedReg t.cpsr.m 0 == 0xFFFFFFFF) = true := by decide

/-- V-T-20: ADD r0, r8 (hi, no flags). -/
theorem test_vector_t_20 : stepOk ((((thumbState.withR 0 0x00000001).withR 8 0x00000002).withFlags 4).putHalf
      0x03000000 0x4440)
    (fun t => t.goesTo 0x03000002 1 && t.flagsAre 4 && t.bankedReg t.cpsr.m 0 == 0x00000003) = true := by decide

/-- V-T-21: ADD pc, r0. -/
theorem test_vector_t_21 : stepOk ((thumbState.withR 0 0x00000010).putHalf 0x03000000 0x4487)
    (fun t => t.goesTo 0x03000014 3 && t.flagsAre 0) = true := by decide

/-- V-T-22: CMP r8, r0 (hi). -/
theorem test_vector_t_22 : stepOk (((thumbState.withR 0 0x00000005).withR 8 0x00000005).putHalf 0x03000000
      0x4580)
    (fun t => t.goesTo 0x03000002 1 && t.flagsAre 6) = true := by decide

/-- V-T-23: MOV r8, r8 (NOP). -/
theorem test_vector_t_23 : stepOk (thumbState.putHalf 0x03000000 0x46C0)
    (fun t => t.goesTo 0x03000002 1 && t.flagsAre 0) = true := by decide

/-- V-T-24: BX r0 to ARM. -/
theorem test_vector_t_24 : stepOk ((thumbState.withR 0 0x03000100).putHalf 0x03000000 0x4700)
    (fun t => t.goesTo 0x03000100 3 && t.flagsAre 0 && t.bankedReg t.cpsr.m 0 == 0x03000100 && (psrWord
      t.cpsr).toNat % 256 == 0x1F) = true := by decide

/-- V-T-25: BX pc at a word-aligned address. -/
theorem test_vector_t_25 : stepOk (thumbState.putHalf 0x03000000 0x4778)
    (fun t => t.goesTo 0x03000004 3 && t.flagsAre 0 && (psrWord t.cpsr).toNat % 256 == 0x1F) = true := by decide

/-- V-T-27: LDR r0, [r1, r2] (misaligned). -/
theorem test_vector_t_27 : stepOk ((((thumbState.withR 1 0x03000100).withR 2 0x00000002).putWord 0x03000100
      0x44332211).putHalf 0x03000000 0x5888)
    (fun t => t.goesTo 0x03000002 3 && t.flagsAre 0 && t.bankedReg t.cpsr.m 0 == 0x22114433) = true := by decide

/-- V-T-28: LDRB r0, [r1, r2]. -/
theorem test_vector_t_28 : stepOk ((((thumbState.withR 1 0x03000100).withR 2 0x00000003).putWord 0x03000100
      0x44332211).putHalf 0x03000000 0x5C88)
    (fun t => t.goesTo 0x03000002 3 && t.flagsAre 0 && t.bankedReg t.cpsr.m 0 == 0x00000044) = true := by decide

/-- V-T-29: STRH r0, [r1, r2]. -/
theorem test_vector_t_29 : stepOk ((((thumbState.withR 0 0x0000ABCD).withR 1 0x03000100).withR 2
      0x00000002).putHalf 0x03000000 0x5288)
    (fun t => t.goesTo 0x03000002 2 && t.flagsAre 0 && t.wordAt 0x03000100 == 0xABCD0000) = true := by decide

/-- V-T-30: LDSB r0, [r1, r2]. -/
theorem test_vector_t_30 : stepOk ((((thumbState.withR 1 0x03000100).withR 2 0x00000000).putWord 0x03000100
      0x000000FE).putHalf 0x03000000 0x5688)
    (fun t => t.goesTo 0x03000002 3 && t.flagsAre 0 && t.bankedReg t.cpsr.m 0 == 0xFFFFFFFE) = true := by decide

/-- V-T-31: LDRH r0, [r1, r2] (odd). -/
theorem test_vector_t_31 : stepOk ((((thumbState.withR 1 0x03000100).withR 2 0x00000001).putWord 0x03000100
      0x00002211).putHalf 0x03000000 0x5A88)
    (fun t => t.goesTo 0x03000002 3 && t.flagsAre 0 && t.bankedReg t.cpsr.m 0 == 0x11000022) = true := by decide

/-- V-T-32: LDSH r0, [r1, r2] (odd). -/
theorem test_vector_t_32 : stepOk ((((thumbState.withR 1 0x03000100).withR 2 0x00000001).putWord 0x03000100
      0x00008080).putHalf 0x03000000 0x5E88)
    (fun t => t.goesTo 0x03000002 3 && t.flagsAre 0 && t.bankedReg t.cpsr.m 0 == 0xFFFFFF80) = true := by decide

/-- V-T-33: STR r0, [r1, #4]. -/
theorem test_vector_t_33 : stepOk (((thumbState.withR 0 0x11223344).withR 1 0x03000100).putHalf 0x03000000
      0x6048)
    (fun t => t.goesTo 0x03000002 2 && t.flagsAre 0 && t.wordAt 0x03000104 == 0x11223344) = true := by decide

/-- V-T-34: LDRB r0, [r1, #1]. -/
theorem test_vector_t_34 : stepOk (((thumbState.withR 1 0x03000100).putWord 0x03000100 0x44332211).putHalf
      0x03000000 0x7848)
    (fun t => t.goesTo 0x03000002 3 && t.flagsAre 0 && t.bankedReg t.cpsr.m 0 == 0x00000022) = true := by decide

/-- V-T-35: LDRH r0, [r1, #2]. -/
theorem test_vector_t_35 : stepOk (((thumbState.withR 1 0x03000100).putWord 0x03000100 0x44332211).putHalf
      0x03000000 0x8848)
    (fun t => t.goesTo 0x03000002 3 && t.flagsAre 0 && t.bankedReg t.cpsr.m 0 == 0x00004433) = true := by decide

/-- V-T-36: STR r0, [SP, #4]. -/
theorem test_vector_t_36 : stepOk ((thumbState.withR 0 0x00000009).putHalf 0x03000000 0x9001)
    (fun t => t.goesTo 0x03000002 2 && t.flagsAre 0 && t.wordAt 0x03007F04 == 0x00000009) = true := by decide

/-- V-T-37: ADD r0, PC, #4. -/
theorem test_vector_t_37 : stepOk (thumbState.putHalf 0x03000000 0xA001)
    (fun t => t.goesTo 0x03000002 1 && t.flagsAre 0 && t.bankedReg t.cpsr.m 0 == 0x03000008) = true := by decide

/-- V-T-38: ADD r0, SP, #4. -/
theorem test_vector_t_38 : stepOk (thumbState.putHalf 0x03000000 0xA801)
    (fun t => t.goesTo 0x03000002 1 && t.flagsAre 0 && t.bankedReg t.cpsr.m 0 == 0x03007F04) = true := by decide

/-- V-T-39: SUB SP, #16. -/
theorem test_vector_t_39 : stepOk (thumbState.putHalf 0x03000000 0xB084)
    (fun t => t.goesTo 0x03000002 1 && t.flagsAre 0 && t.bankedReg t.cpsr.m 13 == 0x03007EF0) = true := by decide

/-- V-T-40: PUSH {r0, r1, lr}. -/
theorem test_vector_t_40 : stepOk ((((thumbState.withR 0 0x00000001).withR 1 0x00000002).withR 14
      0x00000003).putHalf 0x03000000 0xB503)
    (fun t => t.goesTo 0x03000002 4 && t.flagsAre 0 && t.bankedReg t.cpsr.m 13 == 0x03007EF4 && t.wordAt 0x03007EF4
      == 0x00000001 && t.wordAt 0x03007EF8 == 0x00000002 && t.wordAt 0x03007EFC == 0x00000003) = true := by decide

/-- V-T-41: POP {r0, r1, pc}. -/
theorem test_vector_t_41 : stepOk (((((thumbState.withR 13 0x03007EF4).putWord 0x03007EF4 0x00000001).putWord
      0x03007EF8 0x00000002).putWord 0x03007EFC 0x03000201).putHalf 0x03000000 0xBD03)
    (fun t => t.goesTo 0x03000200 7 && t.flagsAre 0 && t.bankedReg t.cpsr.m 0 == 0x00000001 && t.bankedReg t.cpsr.m
      1 == 0x00000002 && t.bankedReg t.cpsr.m 13 == 0x03007F00) = true := by decide

/-- V-T-42: PUSH {} (empty list). -/
theorem test_vector_t_42 : stepOk (thumbState.putHalf 0x03000000 0xB400)
    (fun t => t.goesTo 0x03000002 2 && t.flagsAre 0 && t.bankedReg t.cpsr.m 13 == 0x03007EC0 && t.wordAt 0x03007EC0
      == 0x03000006) = true := by decide

/-- V-T-43: STMIA r1!, {r0, r1} (base not lowest). -/
theorem test_vector_t_43 : stepOk (((thumbState.withR 0 0x00000005).withR 1 0x03000100).putHalf 0x03000000
      0xC103)
    (fun t => t.goesTo 0x03000002 3 && t.flagsAre 0 && t.bankedReg t.cpsr.m 1 == 0x03000108 && t.wordAt 0x03000100
      == 0x00000005 && t.wordAt 0x03000104 == 0x03000108) = true := by decide

/-- V-T-44: LDMIA r0!, {r0, r1} (base in list). -/
theorem test_vector_t_44 : stepOk ((((thumbState.withR 0 0x03000100).putWord 0x03000100 0x0000AAAA).putWord
      0x03000104 0x00000002).putHalf 0x03000000 0xC803)
    (fun t => t.goesTo 0x03000002 4 && t.flagsAre 0 && t.bankedReg t.cpsr.m 0 == 0x0000AAAA && t.bankedReg t.cpsr.m
      1 == 0x00000002) = true := by decide

/-- V-T-45: BEQ +4 with Z = 1 (taken). -/
theorem test_vector_t_45 : stepOk ((thumbState.withFlags 4).putHalf 0x03000000 0xD002)
    (fun t => t.goesTo 0x03000008 3 && t.flagsAre 4) = true := by decide

/-- V-T-46: BEQ +4 with Z = 0 (not taken). -/
theorem test_vector_t_46 : stepOk (thumbState.putHalf 0x03000000 0xD002)
    (fun t => t.goesTo 0x03000002 1 && t.flagsAre 0) = true := by decide

/-- V-T-47: B with offset -4 (self loop). -/
theorem test_vector_t_47 : stepOk (thumbState.putHalf 0x03000000 0xE7FE)
    (fun t => t.goesTo 0x03000000 3 && t.flagsAre 0) = true := by decide

/-- V-T-49: BL suffix alone with lr = 0x03000200. -/
theorem test_vector_t_49 : stepOk ((thumbState.withR 14 0x03000200).putHalf 0x03000000 0xF800)
    (fun t => t.goesTo 0x03000200 3 && t.flagsAre 0 && t.bankedReg t.cpsr.m 14 == 0x03000003) = true := by decide

/-- V-T-50: SWI 0x08 (Sqrt, HLE) in Thumb. -/
theorem test_vector_t_50 : stepOk ((thumbState.withR 0 0xFFFFFFFF).putHalf 0x03000000 0xDF08)
    (fun t => t.goesTo 0x03000002 3 && t.flagsAre 0 && t.bankedReg t.cpsr.m 0 == 0x0000FFFF) = true := by decide

/-- V-T-51: SWI 0x08 in Thumb under Trap. -/
theorem test_vector_t_51 : stepOk ((thumbState.trapping).putHalf 0x03000000 0xDF08)
    (fun t => t.goesTo 0x00000008 3 && t.flagsAre 0 && t.bankedReg t.cpsr.m 13 == 0x03007FE0 && t.bankedReg t.cpsr.m
      14 == 0x03000002 && (psrWord t.cpsr).toNat % 256 == 0x93 && t.spsrOf modeSvc == some (psrOfWord 0x0000003F) &&
      t.bankedReg modeSvc 13 == 0x03007FE0 && t.bankedReg modeSvc 14 == 0x03000002 && t.cpsr.m == modeSvc) = true :=
      by decide

/-- V-T-52: undefined 0xDE00 under Trap. -/
theorem test_vector_t_52 : stepOk ((thumbState.trapping).putHalf 0x03000000 0xDE00)
    (fun t => t.goesTo 0x00000004 3 && t.flagsAre 0 && t.bankedReg t.cpsr.m 13 == 0x00000000 && t.bankedReg t.cpsr.m
      14 == 0x03000002 && (psrWord t.cpsr).toNat % 256 == 0x9B && t.spsrOf modeUnd == some (psrOfWord 0x0000003F) &&
      t.bankedReg modeUnd 13 == 0x00000000 && t.bankedReg modeUnd 14 == 0x03000002 && t.cpsr.m == modeUnd) = true :=
      by decide

/-- V-T-53: undefined 0xE800 under Nop. -/
theorem test_vector_t_53 : stepOk (thumbState.putHalf 0x03000000 0xE800)
    (fun t => t.goesTo 0x03000002 1 && t.flagsAre 0) = true := by decide

/-! ## The hypotheses of the statements are met -/

/-- A state in User mode, and one in each of the modes the statements name. -/
def userState : State := armState.inMode modeUsr

/-- A state in Supervisor mode whose SPSR is a User mode, Thumb state word. -/
def svcState : State := (armState.inMode modeSvc).withSpsr modeSvc 0x40000030

/-- A state in IRQ mode whose SPSR holds no mode. -/
def badSpsrState : State := (armState.inMode modeIrq).withSpsr modeIrq 0x00000000

/-- A state with an enabled interrupt request. -/
def requestState : State :=
  { armState with dev := { armState.dev with ime := 1, ie := 0x2008, iflag := 0x0008 } }

/-- The state after a step that gives one; otherwise the state before it. -/
def nextState (o : Host.Outcome State Fault Refusal) (s : State) : State :=
  match o with
  | .next t => t
  | .fault _ => s
  | .refused _ => s

theorem test_witness_ArmDecodeEncode :
    Instr.WellFormed (.armUndefMulSpace .nv 0x01300095) ∧ (Instr.armUndefMulSpace .nv 0x01300095).isThumb = false ∧
    Instr.WellFormed (.armStm .eq true true true true 15 0xFFFF) ∧
    (Instr.armStm .eq true true true true 15 0xFFFF).isThumb = false :=
  ⟨show undefMulSpaceOk _ by decide, rfl, trivial, rfl⟩

theorem test_witness_ThumbDecodeEncode :
    Instr.WellFormed (.thumbUndef1011 0xFFF) ∧ (Instr.thumbUndef1011 0xFFF).isThumb = true ∧
    Instr.WellFormed (.thumbBcond .le 0xFF) ∧ (Instr.thumbBcond .le 0xFF).isThumb = true :=
  ⟨show undef1011Ok _ by decide, rfl, show condBranchOk _ by decide, rfl⟩

/-- The least and the greatest word and halfword. -/
theorem test_witness_DecodeIsTotalAndWellFormed :
    (decodeWord false 0xFFFFFFFF).WellFormed ∧ (decodeWord false 0).WellFormed ∧
    (decodeWord true 0xFFFF).WellFormed ∧ (decodeWord true 0).WellFormed := ⟨trivial, trivial, trivial, trivial⟩

theorem test_witness_StepRunsDecodedInstruction :
    armState.dev.run = .running ∧ breakpointHit armState = false ∧ staleWords armState.stale armState.pc = [] ∧
    armState.dev.params.cycleCost = .table := by decide

/-- A state at a slot that two stores made stale. -/
theorem test_witness_StepRunsDecodedInstruction_stale :
    let s := { armState with
      stale := [{ addr := 0x03000000, old := 0xE0910002 }, { addr := 0x03000000, old := 0xE0810002 }] }
    s.dev.run = .running ∧ breakpointHit s = false ∧ staleWords s.stale s.pc = [0xE0910002, 0xE0810002] := by decide

/-- A slot recorded in ARM state is dropped when the sequence goes on in Thumb state (70_reset_and_hazards.md R870). -/
theorem test_staleAfter_state :
    let before := armState.putWord 0x03000004 2
    let next := { before.putWord 0x03000004 3 with pc := 0x03000004 }
    staleAfter before next = [{ addr := 0x03000004, old := 2 }] ∧
    staleAfter before { next with cpsr := { next.cpsr with t := true } } = [] := by decide

/-- A BIOS image of another length than 16 KiB is none (70_reset_and_hazards.md R852). -/
theorem test_loadBios_fails : loadBios State.reset [1] = (false, State.reset) := rfl

/-- LoadROM fails for an unreadable file and an empty image and leaves the state as it is (20_memory.md R133). -/
theorem test_loadRom_fails :
    loadRom State.reset none = (false, State.reset) ∧ loadRom State.reset (some []) = (false, State.reset) := ⟨rfl, rfl⟩

/-- A snapshot saved then reloaded is byte-identical (20_memory.md R133). -/
theorem test_backup_snapshot :
    getBackupSnapshot (loadBackup State.reset (some [1, 2, 3])).2 = [1, 2, 3] := rfl

/-- An I/O word that its device changed is the new one at once; one that a store of the step wrote may be the old one too
(20_memory.md R127, 70_reset_and_hazards.md R870). -/
theorem test_staleSlot_io :
    let ticked := { armState with dev := { armState.dev with keyinput := 0 } }
    let stored := { ticked with dev := busWrite ticked.dev .half 0x04000132 1 }
    staleSlot armState ticked 0x04000130 = [] ∧
    staleSlot armState stored 0x04000130 = [{ addr := 0x04000130, old := 0x000003FF }] := by decide

/-- A store elsewhere in the backup window does not reach a slot there, and one to a mirror of it does (20_memory.md R116,
R127). -/
theorem test_storeReaches_backup :
    let d := { Devices.reset with params := { Params.default with saveType := .batteryRam } }
    storeReaches (busWrite d .byte 0x0E000100 1) .word 0x0E000200 = false ∧
    storeReaches (busWrite d .byte 0x0F000201 1) .word 0x0E000200 = true := by decide

/-- A write of a service whose effect is OPEN leaves the bits of IF set (60_exceptions.md R626). -/
theorem test_openAccess_keeps_if :
    let v := Svc.start { armState with dev := { armState.dev with iflag := 0x0009 } }
    (v.openAccess { write := true, size := 1, addr := 0x04000202, value := 0xFFFF }).st.dev.iflag = 0x0009 := by decide

/-- A second store to one slot keeps both words that it may have held (70_reset_and_hazards.md R870). -/
theorem test_staleSlot_twice :
    let before := { armState.putWord 0x03000004 2 with stale := [{ addr := 0x03000004, old := 1 }] }
    staleSlot before (before.putWord 0x03000004 3) 0x03000004 =
      [{ addr := 0x03000004, old := 1 }, { addr := 0x03000004, old := 2 }] := by decide

/-- After an instruction with no request pending, the CPU is as it was; with one, an IRQ is taken. -/
theorem test_witness_AfterInstructionOnlyAnIrqChangesTheCpu :
    nextOk (afterInstr armState armState) (fun t => t.pc == 0x03000000) = true ∧
    nextOk (afterInstr requestState requestState) (fun t => t.pc == 0x18 && t.cpsr.m == modeIrq) = true := by decide

theorem test_witness_FailedConditionSkips :
    (Instr.armUndefMedia .nv 0x07F000F0).isThumb = false ∧ condOf (.armUndefMedia .nv 0x07F000F0) = some .nv ∧
    armState.cpsr.t = false ∧ condPassed .nv armState.cpsr = false ∧ condPassed .eq armState.cpsr = false := by decide

/-- r8 is one register in IRQ and System mode and another in FIQ mode; r13 is one in User and System mode. -/
theorem test_witness_RegisterBanks :
    legalMode modeIrq = true ∧ legalMode modeSys = true ∧ legalMode modeFiq = true ∧ legalMode modeUsr = true ∧
    bankIndex modeIrq 8 = bankIndex modeSys 8 ∧ bankIndex modeFiq 8 ≠ bankIndex modeSys 8 ∧
    bankIndex modeUsr 13 = bankIndex modeSys 13 ∧ bankIndex modeIrq 13 ≠ bankIndex modeSys 13 ∧
    bankIndex modeFiq 7 = bankIndex modeSys 7 := by decide

/-- The clauses' boundary amounts: a rotation of 0 and of 30, a shift of 0 (32), 1 and 31. -/
theorem test_witness_ShifterOperand :
    immOperand 0 0x80 true = { value := 0x80, carry := true } ∧
    immOperand 15 0x80 false = { value := 0x200, carry := false } ∧
    immOperand 1 2 false = { value := 0x80000000, carry := true } ∧
    immShift .lsl 0x80000001 0 true = { value := 0x80000001, carry := true } ∧
    immShift .lsl 0x80000002 31 true = { value := 0, carry := true } ∧
    immShift .lsr 0x80000000 0 false = { value := 0, carry := true } ∧
    immShift .asr 0x80000000 0 false = { value := 0xFFFFFFFF, carry := true } ∧
    immShift .ror 0x00000001 0 true = { value := 0x80000000, carry := true } := by decide

/-- The clauses' boundary amounts: 0 by way of 0x100, 1, 31, 32, 33 and 255. -/
theorem test_witness_RegisterShift :
    regShift .lsr 0x80000000 0x100 true = { value := 0x80000000, carry := true } ∧
    regShift .lsl 0x80000001 1 false = { value := 2, carry := true } ∧
    regShift .lsl 0x00000002 31 false = { value := 0, carry := true } ∧
    regShift .lsl 0x00000001 32 false = { value := 0, carry := true } ∧
    regShift .lsl 0x00000001 33 true = { value := 0, carry := false } ∧
    regShift .lsr 0x80000000 33 true = { value := 0, carry := false } ∧
    regShift .asr 0x80000000 255 false = { value := 0xFFFFFFFF, carry := true } ∧
    regShift .ror 0x80000000 32 false = { value := 0x80000000, carry := true } := by decide

/-- Each clause's operations. -/
theorem test_witness_AluFlagRules :
    AluOp.isLogical .mov = true ∧ AluOp.isLogical .add = false ∧ AluOp.isLogical .adc = false ∧
    AluOp.isLogical .sbc = false ∧ AluOp.isLogical .rsb = false ∧ AluOp.isLogical .rsc = false := by decide

theorem test_witness_DataProcessingWritesRegister :
    AluOp.isTest .rsc = false ∧ armState.cpsr.t = false ∧ condPassed .al armState.cpsr = true ∧ (14 : Reg) ≠ 15 := by
  decide

/-- The clauses: no SPSR (System mode), a saved mode, and a saved word that is no mode. -/
theorem test_witness_DataProcessingWritesPc :
    AluOp.isTest .mov = false ∧ armState.cpsr.t = false ∧ condPassed .al armState.cpsr = true ∧
    armState.spsrOf armState.cpsr.m = none ∧
    svcState.cpsr.t = false ∧ condPassed .al svcState.cpsr = true ∧
    svcState.spsrOf svcState.cpsr.m = some (psrOfWord 0x40000030) ∧ legalMode (psrOfWord 0x40000030).m = true ∧
    badSpsrState.cpsr.t = false ∧ condPassed .al badSpsrState.cpsr = true ∧
    badSpsrState.spsrOf badSpsrState.cpsr.m = some (psrOfWord 0) ∧ legalMode (psrOfWord 0).m = false := by decide

theorem test_witness_TestsWriteOnlyFlags :
    AluOp.isTest .cmn = true ∧ armState.cpsr.t = false ∧ condPassed .pl armState.cpsr = true := by decide

/-- Both clauses: a register, and r15. -/
theorem test_witness_MrsReadsStatusWord :
    armState.cpsr.t = false ∧ condPassed .al armState.cpsr = true ∧ (14 : Reg) ≠ 15 ∧ (15 : Reg) = 15 := by decide

/-- The clauses: the CPSR to a mode and to no mode, no SPSR, and an SPSR. -/
theorem test_witness_MsrWritesMaskedBits :
    msrOf (.armMsrImm .al false 9 2 0x0F) armState =
      some { cond := .al, spsr := false, mask := 9, value := 0xF0000000 } ∧
    msrOf (.armMsrReg .al true 9 1) armState = some { cond := .al, spsr := true, mask := 9, value := 0 } ∧
    armState.spsrOf armState.cpsr.m = none ∧ svcState.spsrOf svcState.cpsr.m = some (psrOfWord 0x40000030) ∧
    armState.cpsr.t = false ∧ svcState.cpsr.t = false ∧ condPassed .al svcState.cpsr = true ∧
    legalMode (psrOfWord (maskedWord (psrWord armState.cpsr) 0xF0000000 (msrCpsrMask modeSys 9))).m = false ∧
    legalMode (psrOfWord (maskedWord (psrWord armState.cpsr) 0xF0000000 (msrCpsrMask modeSys 8))).m = true := by decide

/-- With S, without S, and r15. -/
theorem test_witness_MultiplyResult :
    (mulOf (.armMul .al true 0 2 1) armState).isSome = true ∧ (mulOf (.armMla .al false 15 3 2 1) armState).isSome = true ∧
    (mulOf (.thumbMul 1 0) thumbState).isSome = true ∧ condPassed .al armState.cpsr = true ∧
    condPassed .al thumbState.cpsr = true ∧ armState.dev.params.mulCarry = .executableDefault := by decide

/-- With S, without S, one register for both destinations, and r15. -/
theorem test_witness_LongMultiplyResult :
    (longMulOf (.armUmull .al true 1 0 3 2) armState).isSome = true ∧
    (longMulOf (.armSmlal .al false 1 1 3 2) armState).isSome = true ∧
    (longMulOf (.armUmlal .al true 15 0 3 2) armState).isSome = true ∧ armState.cpsr.t = false ∧
    condPassed .al armState.cpsr = true := by decide

/-- The first and last multiplier of each group. -/
theorem test_witness_MultiplierCycles :
    mulCyclesSigned 0x000000FF = 1 ∧ mulCyclesSigned 0xFFFFFF00 = 1 ∧ mulCyclesSigned 0x00000100 = 2 ∧
    mulCyclesSigned 0xFFFF0000 = 2 ∧ mulCyclesSigned 0x00010000 = 3 ∧ mulCyclesSigned 0xFF000000 = 3 ∧
    mulCyclesSigned 0x01000000 = 4 ∧ mulCyclesUnsigned 0x000000FF = 1 ∧ mulCyclesUnsigned 0x0000FFFF = 2 ∧
    mulCyclesUnsigned 0x00FFFFFF = 3 ∧ mulCyclesUnsigned 0xFFFFFFFF = 4 := by decide

/-- A form with and without write-back, pre- and post-indexed, up and down, in both modes. -/
theorem test_witness_TransferAddresses :
    addr2Pre armState true { up := true, rn := 15, off := .imm 0xFFF } =
      { addr := 0x03001007, base := 15, wback := some 0x03001007 } ∧
    addr2Post armState { up := false, rn := 13, off := .reg 13 .asr 0 } =
      { addr := 0x03007F00, base := 13, wback := some 0x03007F00 } ∧
    addr3 armState { pre := true, up := false, wback := false, rn := 13, off := .imm 0xFF } =
      { addr := 0x03007E01, base := 13, wback := none } := by decide

/-- An even and an odd address. -/
theorem test_witness_LoadedValues : (0x03000100 : Word).toNat % 2 = 0 ∧ (0x03000101 : Word).toNat % 2 = 1 := by decide

/-- The clauses: r15 loaded, r15 written back, and neither. -/
theorem test_witness_ArmLoads :
    (armLoadOf (.armLdrPre .al false { up := true, rn := 1, off := .imm 0 } 15) armState).isSome = true ∧
    (armLoadOf (.armLdrsh .al { pre := true, up := true, wback := true, rn := 15, off := .imm 0xFF } 0)
      armState).map (fun f => f.addr.nextPc) = some (some 0x03000107) ∧
    (armLoadOf (.armLdrbt .al { up := true, rn := 1, off := .imm 1 } 0) armState).map (fun f => f.addr.nextPc) =
      some none ∧
    armState.cpsr.t = false ∧ condPassed .al armState.cpsr = true := by decide

/-- The clauses: r15 written back, and a plain base. -/
theorem test_witness_ArmStores :
    (armStoreOf (.armStrPost .al { up := false, rn := 15, off := .imm 4 } 15) armState).map (fun f => f.addr.nextPc) =
      some (some 0x03000004) ∧
    (armStoreOf (.armStrh .al { pre := true, up := true, wback := false, rn := 1, off := .imm 2 } 0)
      armState).map (fun f => f.addr.nextPc) = some none ∧
    armState.cpsr.t = false ∧ condPassed .al armState.cpsr = true := by decide

/-- Both widths, and r15 as destination. -/
theorem test_witness_Swaps :
    (armSwapOf (.armSwp .al 2 15 1) armState).isSome = true ∧ (armSwapOf (.armSwpb .al 2 0 1) armState).isSome = true ∧
    armState.cpsr.t = false ∧ condPassed .al armState.cpsr = true := by decide

/-- The empty list and the full list, from their first registers to their ends. -/
theorem test_witness_BlockAddresses :
    (blockAddr false true 0x03000100 0).wback = 0x03000140 ∧ (blockAddr true false 0x03000100 0).first = 0x030000C0 ∧
    (blockAddr true false 0x03000100 0xFFFF).first = 0x030000C0 ∧ (listRegs 0x8001) = [0, 15] := by decide

/-- The clauses: no r15 with a plain base and with r15 as the base; r15 loaded; a PSR restore with no SPSR, with a saved
mode and with no mode saved. -/
theorem test_witness_BlockLoads :
    (blockLoadOf (.armLdm .al false true false true 0 0x000E) armState).map (fun l => l.pcLoaded armState) = some none ∧
    (blockLoadOf (.armLdm .al false true false true 15 0x000E) armState).map
      (fun l => decide (l.writesBase = true ∧ l.form.rn = 15)) = some true ∧
    (blockLoadOf (.thumbPop true 0) thumbState).map (fun l => (l.pcLoaded thumbState).isSome) = some true ∧
    (blockLoadOf (.armLdm .al false true true true 13 0x8001) svcState).map
      (fun l => l.restore && (l.pcLoaded svcState).isSome) = some true ∧
    armState.spsrOf armState.cpsr.m = none ∧ svcState.spsrOf svcState.cpsr.m = some (psrOfWord 0x40000030) ∧
    badSpsrState.spsrOf badSpsrState.cpsr.m = some (psrOfWord 0) ∧ condPassed .al armState.cpsr = true ∧
    condPassed .al svcState.cpsr = true ∧ condPassed .al thumbState.cpsr = true := by decide

/-- The three stores, with r15 as a written-back base and with an empty list among them. -/
theorem test_witness_BlockStores :
    (blockStoreOf (.armStm .al true false false true 15 0) armState).map
      (fun f => decide (f.wback = true ∧ f.rn = 15)) = some true ∧
    (blockStoreOf (.thumbPush true 0) thumbState).isSome = true ∧
    (blockStoreOf (.thumbStmia 1 3) thumbState).isSome = true ∧ condPassed .al armState.cpsr = true ∧
    condPassed .al thumbState.cpsr = true := by decide

theorem test_witness_ArmBranches : armState.cpsr.t = false ∧ condPassed .al armState.cpsr = true := by decide

theorem test_witness_ThumbBranches : thumbState.cpsr.t = true := by decide

/-- One instruction of each shape, and r15 as destination of a move. -/
theorem test_witness_ThumbRegisterOperations :
    thumbState.cpsr.t = true ∧ (thumbOpOf (.thumbSbc 1 0) thumbState).isSome = true ∧
    (thumbTestOf (.thumbCmpHi 15 8) thumbState).isSome = true ∧
    thumbMoveOf (.thumbAddHi 15 15) thumbState = some (15, 0x06000008) ∧
    thumbMoveOf (.thumbDecSp 0x7F) thumbState = some (13, 0x03007D04) := by decide

theorem test_witness_ThumbSingleTransfers :
    thumbState.cpsr.t = true ∧ (thumbLoadOf (.thumbLdshReg 2 1 0) thumbState).isSome = true ∧
    thumbStoreOf (.thumbStrSp 7 0xFF) thumbState = some (.word, 7, 0x030082FC) := by decide

theorem test_witness_UndefinedIsNop :
    isUndefined (.armMcr .al 0 0 0 0 0 0) = true ∧ mayRun (.armMcr .al 0 0 0 0 0 0) armState ∧
    armState.dev.params.undefPolicy = .nop :=
  ⟨rfl, (by intro c h; cases h; rfl), rfl⟩

/-- Both clauses, with a supplied image and with the stub. -/
theorem test_witness_TrapsAreTaken :
    mayRun (.thumbSwi 0x12) thumbState.trapping ∧ mayRun (.armCdp .al 0 0 0 1 0 0) armState.trapping ∧
    isSwi (.thumbSwi 0x12) = true ∧ isUndefined (.armCdp .al 0 0 0 1 0 0) = true ∧
    armState.trapping.dev.params.undefPolicy = .trap ∧ armState.trapping.dev.params.swiMode = .trap ∧
    armState.trapping.dev.params.biosKind = .supplied ∧ armState.dev.params.biosKind = .stub :=
  ⟨(by intro c h; cases h), (by intro c h; cases h; rfl), rfl, rfl, rfl, rfl, rfl, rfl⟩

/-- The clauses' numbers: the first and the last unlisted one, Halt and Stop. -/
theorem test_witness_ServicesReturn :
    swiNumber (.armSwi .al 0x2B0000) = some 0x2B ∧ swiNumber (.armSwi .al 0xFFFFFF) = some 0xFF ∧
    swiNumber (.thumbSwi 0x02) = some 0x02 ∧ swiNumber (.thumbSwi 0x03) = some 0x03 ∧
    mayRun (.armSwi .al 0x2B0000) armState ∧ mayRun (.armSwi .al 0xFFFFFF) armState ∧
    mayRun (.thumbSwi 0x02) thumbState ∧ armState.dev.params.swiMode = .hle ∧ thumbState.dev.params.swiMode = .hle ∧
    swiNumber (.thumbSwi 0x0D) = some 0x0D ∧ swiNumber (.armSwi .al 0x270000) = some 0x27 :=
  ⟨rfl, rfl, rfl, rfl, (by intro c h; cases h; rfl), (by intro c h; cases h; rfl), (by intro c h; cases h), rfl, rfl, rfl, rfl⟩

/-- A sound service and MultiBoot, drawn (as after reset) and under the executable defaults. -/
theorem test_witness_ServicesReturn_open :
    let p := { armState.dev.params with biosSound := .executableDefault, biosMultiBoot := .executableDefault }
    swiNumber (.armSwi .al 0x1A0000) = some 0x1A ∧ swiNumber (.thumbSwi 0x2A) = some 0x2A ∧
    swiNumber (.thumbSwi 0x25) = some 0x25 ∧ condPassed .al armState.cpsr = true ∧
    armState.dev.params.biosSound = .draw ∧ armState.dev.params.biosMultiBoot = .draw ∧
    armState.dev.params.swiMode = .hle ∧
    ({ armState with dev := { armState.dev with params := p } } : State).dev.params.swiMode = .hle := by decide

/-- Either return address of SoftReset, from a state with memory in canonical form. -/
theorem test_witness_SoftResetService :
    let s := (armState.inMode modeFiq).putWord 0x03007FF8 0x00010000
    swiNumber (.armSwi .al 0x00FFFF) = some 0 ∧ condPassed .al s.cpsr = true ∧ s.dev.params.swiMode = .hle ∧
    s.dev.mem.wf = true ∧ cellRead s.dev.mem 0x03007FFA = 1 ∧ cellRead armState.dev.mem 0x03007FFA = 0 := by decide

/-- Division by zero, the most negative number by -1, and a square root. -/
theorem test_witness_ArithmeticServices :
    swiNumber (.armSwi .al 0x060000) = some 0x06 ∧ swiNumber (.thumbSwi 0x07) = some 0x07 ∧
    swiNumber (.thumbSwi 0x08) = some 0x08 ∧ mayRun (.armSwi .al 0x060000) armState ∧
    armState.dev.params.swiMode = .hle ∧ armState.readReg 1 = 0 ∧
    nextOk (exec (.armSwi .al 0x060000) ((armState.withR 0 0x80000000).withR 1 0xFFFFFFFF))
      (fun t => t.readReg 0 == 0x80000000 && t.readReg 1 == 0 && t.readReg 3 == 0x80000000) = true ∧
    nextOk (exec (.armSwi .al 0x080000) (armState.withR 0 0xFFFFFFFF)) (fun t => t.readReg 0 == 0xFFFF) = true :=
  ⟨rfl, rfl, rfl, (by intro c h; cases h; rfl), rfl, by decide, by decide, by decide⟩

/-- Both cases. -/
theorem test_witness_InterruptPoll :
    (requestState.dev.ime.getLsbD 0 = true ∧ requestState.dev.ie &&& requestState.dev.iflag &&& 0x3FFF ≠ 0 ∧
      requestState.cpsr.i = false ∧ requestState.dev.run = .running) ∧
    armState.dev.ie &&& armState.dev.iflag &&& 0x3FFF = 0 ∧ armState.dev.params.cycleCost = .table := by decide

/-- A Thumb caller in User mode, both links, and the handler's state as it enters. -/
theorem test_witness_ExceptionReturns :
    let s := thumbState.inMode modeUsr
    let t := enteredException s modeSvc 0x08 (s.pc + s.instrBytes) 3
    let x := enteredException s modeIrq 0x18 (s.pc + 4) 3
    (legalMode s.cpsr.m = true ∧ s.pc.toNat % s.instrBytes.toNat = 0) ∧
    (t.cpsr.m = modeSvc ∧ t.cpsr.t = false ∧ t.bankedReg modeSvc 14 = 0x03000002) ∧
    (x.cpsr.m = modeIrq ∧ x.cpsr.t = false ∧ x.bankedReg modeIrq 14 = 0x03000004 ∧
      x.spsrOf modeIrq = some s.cpsr) := by decide

/-- A mode change, and an instruction of User mode. -/
theorem test_witness_ModeChangesOnlyAsListed :
    nextOk (exec (.armMsrReg .al false 1 0) (armState.withR 0 0x12)) (fun t => t.cpsr.m == modeIrq) = true ∧
    nextOk (exec (.armMsrReg .al false 1 0) (userState.withR 0 0x12)) (fun t => t.cpsr.m == modeUsr) = true ∧
    userState.cpsr.m = modeUsr ∧ isSwi (.armMsrReg .al false 1 0) = false ∧
    isUndefined (.armMsrReg .al false 1 0) = false ∧ userState.dev.params.undefPolicy = .nop := by decide

/-- A next state, and a register that stays. -/
theorem test_witness_CpuFrame :
    nextOk (exec (.armMul .al true 0 2 1) armState) (fun _ => true) = true ∧
    bankIndex modeSys 1 ∉ writtenRegs (.armMul .al true 0 2 1) armState ∧
    mayWriteSpsr (.armMul .al true 0 2 1) = false ∧ isSwi (.armMul .al true 0 2 1) = false ∧
    mayDraw (.armMul .al false 0 2 1) = false := by decide

/-- A store, a byte outside it, and an instruction that stores nothing. -/
theorem test_witness_MemoryFrame :
    let i : Instr := .armStrPre .al false { up := true, rn := 13, off := .imm 0 } 0
    isSwi i = false ∧ nextOk (exec i armState) (fun _ => true) = true ∧
    storesTo i armState = [(.word, 0x03007F00)] ∧ 0x03007EFF ∉ storedKeys armState.dev .word 0x03007F00 ∧
    0x03007F00 ∈ storedKeys armState.dev .word 0x03007F00 ∧ storesTo (.armB .al 0) armState = [] := by decide

/-- The least and the greatest address of each region. -/
theorem test_witness_RegionDecode :
    regionOf 0 = .bios ∧ regionOf 0x3FFF = .bios ∧ regionOf 0x4000 = .unmapped ∧ regionOf 0x01FFFFFF = .unmapped ∧
    regionOf 0x02000000 = .ewram ∧ regionOf 0x03000000 = .iwram ∧ regionOf 0x04FFFFFF = .io ∧
    regionOf 0x05000000 = .palette ∧ regionOf 0x06FFFFFF = .vram ∧ regionOf 0x07FFFFFF = .oam ∧
    regionOf 0x09FFFFFF = .rom 0 ∧ regionOf 0x0A000000 = .rom 1 ∧ regionOf 0x0DFFFFFF = .rom 2 ∧
    regionOf 0x0FFFFFFF = .backup ∧ regionOf 0x10000000 = .unmapped ∧ regionOf 0xFFFFFFFF = .unmapped := by decide

/-- A byte and the last word of each work RAM, and the last word of the other RAMs, each with a mirror: `place` is the
byte of the memory an address names (20_memory.md R106, R107, R109 to R111). -/
theorem test_witness_RamStoresReadBack :
    Devices.reset.mem.wf = true ∧ regionOf (0x02FFFFFC : Word).toNat = .ewram ∧
    regionOf (0x0203FFFF : Word).toNat = .ewram ∧ 0x0203FFFF % 0x40000 / 4 = 0x02FFFFFC % 0x40000 / 4 ∧
    regionOf (0x03FFFFFF : Word).toNat = .iwram ∧ regionOf (0x03007FFC : Word).toNat = .iwram ∧
    0x03007FFC % 0x8000 / 4 = 0x03FFFFFF % 0x8000 / 4 ∧ 0x03007FFC % 0x8000 ≠ 0x03FFFFFF % 0x8000 ∧
    regionOf (0x050007FE : Word).toNat = .palette ∧ 0x050007FE % 0x400 / 2 = 0x050003FF % 0x400 / 2 ∧
    regionOf (0x0601FFFC : Word).toNat = .vram ∧ 0x0601FFFC % 0x20000 - 0x8000 = 0x06017FFC % 0x20000 ∧
    regionOf (0x07FFFFFC : Word).toNat = .oam ∧ 0x07FFFFFC % 0x400 = 0x070003FC % 0x400 := by decide

/-- A byte store to work RAM writes the byte alone; a word store at the top of VRAM stands at its mirror (20_memory.md
R106, R110). -/
theorem test_ramStores :
    let v : BusView := { openLatch := 0, biosLatch := none }
    let d := busWrite (busWrite Devices.reset .word 0x02000000 0x44332211) .byte 0x02040001 0xAABB
    let e := busWrite Devices.reset .word 0x0601FFFC 0x44332211
    busRead d v .word 0x02000000 = 0x4433BB11 ∧ busRead e v .half 0x06017FFE = 0x4433 := by decide

/-- A byte store writes its byte in work RAM, its halfword in palette RAM and low VRAM, and nothing in OAM and in VRAM from
the OBJ boundary on (20_memory.md R106, R107, R109 to R111). -/
theorem test_storedKeys :
    let d := Devices.reset
    storedKeys d .byte 0x02040001 = [0x02000001] ∧ storedKeys d .byte 0x03FFFFFF = [0x03007FFF] ∧
    storedKeys d .byte 0x05000001 = [0x05000000, 0x05000001] ∧ storedKeys d .byte 0x0600FFFF = [0x0600FFFE, 0x0600FFFF] ∧
    storedKeys d .byte 0x06010000 = [] ∧ storedKeys d .byte 0x07000000 = [] := by decide

/-- Each clause's region, the OBJ boundary of BG modes 0 and 3 from both sides, and a ROM outside the EEPROM window. -/
theorem test_witness_NarrowAndIgnoredWrites :
    let d := Devices.reset
    let e := { d with ppu := { d.ppu with dispcnt := 3 } }
    regionOf (0x00000000 : Word).toNat = .bios ∧ regionOf (0x00004000 : Word).toNat = .unmapped ∧
    regionOf (0x0D000000 : Word).toNat = .rom 2 ∧ inEepromWindow d 0x0D000000 = false ∧
    regionOf (0x07000000 : Word).toNat = .oam ∧ regionOf (0x05000001 : Word).toNat = .palette ∧
    d.ppu.dispcnt &&& 7 = 0 ∧ e.ppu.dispcnt &&& 7 = 3 ∧
    regionOf (0x06018000 : Word).toNat = .vram ∧ ((0x06018000 : Word) &&& 0x1FFFF).toNat - 0x8000 = 0x10000 ∧
    ((0x0600FFFF : Word) &&& 0x1FFFF).toNat < 0x10000 ∧ ((0x06013FFF : Word) &&& 0x1FFFF).toNat < 0x14000 := by decide

/-- An unmapped address, and the BIOS from outside and from inside. -/
theorem test_witness_OpenBusAndBiosProtection :
    regionOf (0x10000000 : Word).toNat = .unmapped ∧ (0x3FFF : Word).toNat < 0x4000 ∧
    0x4000 ≤ armState.pc.toNat ∧ ({ armState with pc := 0x18 } : State).pc.toNat < 0x4000 := by decide

/-- Each clause's region, and a multiple of 128 KiB in ROM. -/
theorem test_witness_AccessCosts :
    regionOf (0x03000000 : Word).toNat = .iwram ∧ regionOf (0x02000000 : Word).toNat = .ewram ∧
    regionOf (0x06000000 : Word).toNat = .vram ∧ regionOf (0x0E000000 : Word).toNat = .backup ∧
    regionOf (0x08020000 : Word).toNat = .rom 0 ∧ alignTo .word (0x08020000 : Word).toNat % 0x20000 = 0 ∧
    accessCost Devices.reset .word 0x08020000 .seq = 8 ∧ accessCost Devices.reset .word 0x08020004 .seq = 6 := by decide

/-- A start, a write to a running timer and a stop; and timer 0 running alone, at 0 and at 0xFFFF. -/
theorem test_witness_TimerControlAndCount :
    let t : Timer := { reload := 0x1234, counter := 0xFFFF, ctl := 0x0080, phase := 0 }
    let d := { Devices.reset with timers := Devices.reset.timers.set 0 t }
    ((0x0080 : Half).getLsbD 7 = true ∧ ({ t with ctl := 0 } : Timer).ctl.getLsbD 7 = false ∧
      t.ctl.getLsbD 7 = true ∧ (0x0000 : Half).getLsbD 7 = false) ∧
    (d.timers[0].ctl.getLsbD 7 = true ∧ d.timers[0].ctl.toNat % 4 = 0 ∧ d.timers[1].ctl.getLsbD 7 = false ∧
      d.timers[2].ctl.getLsbD 7 = false ∧ d.timers[3].ctl.getLsbD 7 = false ∧ d.timers[0].counter = 0xFFFF) := by decide

/-- A channel that a write enables, one that is enabled, and a clearing write. -/
theorem test_witness_DmaEnable :
    let c : DmaChannel := { Devices.reset.dma[3] with cntH := 0x8000 }
    (0x8000 : Half).getLsbD 15 = true ∧ Devices.reset.dma[3].cntH.getLsbD 15 = false ∧ c.cntH.getLsbD 15 = true ∧
    (0x0000 : Half).getLsbD 15 = false := by decide

/-- The clauses' dots, on the first, the last visible and the last line. -/
theorem test_witness_BeamAndBlankFlags :
    let at' := fun (line dot : Nat) => { Devices.reset with ppu := { Ppu.reset with line := line, dot := dot } }
    (∀ l ∈ [0, 159, 227], ∀ x ∈ [0, 959, 1231], (at' l x).ppu.line < 228 ∧ (at' l x).ppu.dot < 1232) ∧
    (tickPpu (at' 159 1231)).ppu.line = 160 ∧ (tickPpu (at' 227 1231)).ppu.line = 0 ∧
    (tickPpu (at' 227 1230)).ppu.dot = 1231 := by decide

/-- Either condition of KEYCNT, met and not met. -/
theorem test_witness_KeypadInput :
    let any := { armState with dev := { armState.dev with keycnt := 0x4003 } }
    let all := { armState with dev := { armState.dev with keycnt := 0xC003 } }
    (updateInput any 1).dev.iflag = 0x1000 ∧ (updateInput any 4).dev.iflag = 0 ∧
    (updateInput all 1).dev.iflag = 0 ∧ (updateInput all 3).dev.iflag = 0x1000 := by decide

/-- The three clauses. -/
theorem test_witness_IdleSteps :
    let stopped := armState.setRun (.halted .stop)
    let marked := addBreakpoint armState 0x03000000
    (armState.setRun (.paused none)).dev.run = .paused none ∧ stopped.dev.run = .halted .stop ∧
    stopped.dev.ie &&& stopped.dev.iflag &&& 0x3080 = 0 ∧ marked.dev.run = .running ∧
    marked.pc ∈ marked.dbg.breakpoints ∧ marked.dbg.bpSkip = false := by decide

/-- A halted step that sleeps on, one that wakes into an IRQ, and one that wakes at the same pc. -/
theorem test_witness_HaltedStepWakes :
    let r := requestState.setRun (.halted .halt)
    let m := { r with cpsr := { r.cpsr with i := true } }
    (armState.setRun (.halted .halt)).dev.run = .halted .halt ∧
    stepOk (armState.setRun (.halted .halt)) (fun t => t.dev.run == .halted .halt && t.goesTo 0x03000000 1) = true ∧
    stepOk r (fun t => t.dev.run == .running && t.goesTo 0x18 4) = true ∧
    stepOk m (fun t => t.dev.run == .running && t.goesTo 0x03000000 1) = true := by decide

/-- The three clauses: DirectBoot with the default MEM_INIT, and FromFirmware with either image. -/
theorem test_witness_HostResetState :
    let fw := { Params.default with bootMode := .fromFirmware }
    let supplied := { armState with dev := { armState.dev with params := { fw with biosKind := .supplied } } }
    let stub := { armState with dev := { armState.dev with params := fw } }
    (armState.dev.params.bootMode = .directBoot ∧ armState.dev.params.memInit = []) ∧
    (supplied.dev.params.bootMode = .fromFirmware ∧ supplied.dev.params.biosKind = .supplied) ∧
    (stub.dev.params.bootMode = .fromFirmware ∧ stub.dev.params.biosKind = .stub) ∧
    nextOk (hostReset armState) (fun t => t.pc == 0x08000000) = true ∧
    nextOk (hostReset supplied) (fun t => t.pc == 0 && t.cpsr.m == modeSvc) = true := by decide

/-- A state that meets the first two invariants, and its step gives a next state; so does the state after reset. -/
theorem test_witness_StepKeepsMemoryCanonical_and_ModeAndPc :
    (legalMode armState.cpsr.m = true ∧ armState.pc.toNat % armState.instrBytes.toNat = 0) ∧
    armState.dev.mem.wf = true ∧ stepOk armState (fun _ => true) = true ∧
    (legalMode State.reset.cpsr.m = true ∧ State.reset.pc.toNat % State.reset.instrBytes.toNat = 0) ∧
    State.reset.dev.mem.wf = true ∧ stepOk State.reset (fun _ => true) = true := by decide

/-- The same of the devices' bounds. -/
theorem test_witness_StepKeepsDeviceBounds : armState.DevicesOk ∧ State.reset.DevicesOk :=
  have h : State.reset.DevicesOk :=
    ⟨⟨by decide, by decide, List.length_replicate, List.length_replicate⟩, by decide, by decide, by decide, by decide,
      by decide⟩
  ⟨h, h⟩

/-- An instruction stored where the step after reset fetches is run by it (notes/assumptions/8). -/
theorem test_withFetchWord :
    stepOk (State.reset.withFetchWord 32 0xE3A00001) (fun t => t.readReg 0 == 1 && t.pc == 0x08000004) = true ∧
    stepOk (State.reset.withFetchWord 16 0x20FF) (fun t => t.readReg 0 == 255 && t.pc == 0x08000002) = true := by decide
end

section
/-! Registers and their banks (10_state.md R32): which names share a physical register, and reads after writes. -/

open Sys2Proof

namespace Sys2Proof.Machine

/-- The one name under which any mode reads a physical register (R32). -/
def nameOfBank (x : Fin 30) : Reg :=
  if x < 15 then Fin.ofNat 16 x.val
  else if x < 20 then Fin.ofNat 16 (x.val - 7)
  else if x.val % 2 = 0 then 13
  else 14

theorem nameOfBank_bankIndex : ∀ (m : BitVec 5) (i : Reg), i ≠ 15 → nameOfBank (bankIndex m i) = i := by decide

/-- Two modes have one r13 where they are one mode, and User and System mode share theirs. -/
theorem bankOf13_eq_iff : ∀ m n : BitVec 5, legalMode m = true → legalMode n = true →
    (bankOf13 m = bankOf13 n ↔
      m = n ∨ ((m = modeUsr ∨ m = modeSys) ∧ (n = modeUsr ∨ n = modeSys))) := by decide

/-- FIQ mode's r8 to r12 are none of the other modes'. -/
theorem bankIndex_fiq_ne : ∀ (n : BitVec 5) (i : Reg), ¬ i < 8 → i < 13 → n ≠ modeFiq →
    bankIndex modeFiq i ≠ bankIndex n i := by decide

/-- Two modes share a name's register where the table of R32 says. -/
theorem bankIndex_same_name_iff {m n : BitVec 5} {i : Reg} (hm : legalMode m = true) (hn : legalMode n = true) :
    bankIndex m i = bankIndex n i ↔
      i < 8 ∨ m = n ∨ (i < 13 ∧ m ≠ modeFiq ∧ n ≠ modeFiq) ∨
        ((m = modeUsr ∨ m = modeSys) ∧ (n = modeUsr ∨ n = modeSys)) := by
  by_cases h8 : i < 8
  · simp [bankIndex, h8]
  by_cases h13 : i < 13
  · have hfiq : ¬ (modeFiq = modeUsr ∨ modeFiq = modeSys) := by decide
    by_cases hmf : m = modeFiq <;> by_cases hnf : n = modeFiq
    · simp [hmf, hnf]
    · simp [hmf, bankIndex_fiq_ne n i h8 h13 hnf, h8, hfiq, Ne.symm hnf]
    · simp [hnf, (bankIndex_fiq_ne m i h8 h13 hmf).symm, h8, hmf, hfiq]
    · simp [bankIndex, h8, h13, hmf, hnf]
  · have h := bankOf13_eq_iff m n hm hn
    by_cases h14 : i = 13 <;> simp [bankIndex, h8, h13, h14, h]

/-- A write of a name is read back through the names that share its register, and through no other. -/
theorem bankedReg_setBankedReg (s : State) (m n : BitVec 5) {i : Reg} (j : Reg) (v : Word) (hi : i ≠ 15) :
    (s.setBankedReg m i v).bankedReg n j = if bankIndex n j = bankIndex m i then v else s.bankedReg n j := by
  by_cases h : bankIndex n j = bankIndex m i
  · simp [State.bankedReg, State.setBankedReg_regs s m i v hi, h]
  · simpa [State.bankedReg, h] using State.setBankedReg_regs_other s m i v _ h

end Sys2Proof.Machine

open Sys2Proof.Machine

/-- Settles O9: a physical register has one name, so that sharing is a matter of the modes alone (R32). -/
theorem registerBanks : Obligations.RegisterBanks := by
  refine ⟨fun m n i j hm hn hi hj => ?_, fun _ => rfl, fun s i hi => by simp [State.readReg, State.bankedReg, hi],
    fun s m n i j v hi => bankedReg_setBankedReg s m n j v hi⟩
  constructor
  · intro h
    have hij : i = j := by
      rw [← nameOfBank_bankIndex m i hi, h, nameOfBank_bankIndex n j hj]
    subst hij
    exact ⟨rfl, (bankIndex_same_name_iff hm hn).mp h⟩
  · rintro ⟨rfl, h⟩
    exact (bankIndex_same_name_iff hm hn).mpr h
end

section
/-! What one instruction may do to the CPU, as a footprint: the registers and status fields it may change. One rule for
each operation on the state; the rules chain (`Footprint.Covers.trans`). -/

open Sys2Proof

namespace Sys2Proof.Machine

/-! ## Legal modes and aligned pcs -/

/-- The instruction width is that of T (R36). -/
theorem instrBytes_congr {s t : State} (h : t.cpsr = s.cpsr) : t.instrBytes = s.instrBytes := by
  unfold State.instrBytes
  rw [h]

/-- The legal-mode and aligned-pc invariant speaks of the status word and pc alone. -/
theorem ModePcOk_congr {s t : State} (hp : t.cpsr = s.cpsr) (hpc : t.pc = s.pc) (h : s.ModePcOk) : t.ModePcOk := by
  unfold State.ModePcOk at *
  rwa [hpc, instrBytes_congr hp, hp]

/-- A branch target is aligned for the state of T (R35). -/
theorem alignPc_aligned (t : Bool) (v : Word) : (alignPc t v).toNat % (if t then 2 else 4 : Word).toNat = 0 := by
  cases t
  · show (v &&& 0xFFFFFFFC).toNat % 2 ^ 2 = 0
    rw [BitVec.toNat_and, Nat.and_mod_two_pow]
    exact Nat.and_zero _
  · show (v &&& 0xFFFFFFFE).toNat % 2 ^ 1 = 0
    rw [BitVec.toNat_and, Nat.and_mod_two_pow]
    exact Nat.and_zero _

/-- The next instruction's address is aligned where the instruction's is (R36). -/
theorem nextPc_aligned {s : State} (h : s.pc.toNat % s.instrBytes.toNat = 0) :
    (s.pc + s.instrBytes).toNat % s.instrBytes.toNat = 0 := by
  unfold State.instrBytes at *
  cases hT : s.cpsr.t <;> simp [hT, BitVec.toNat_add] at * <;> omega

/-- An exception entry leaves a legal mode and an aligned pc, whatever state it is taken in (60_exceptions.md R606). -/
theorem takeException_modePcOk (s : State) {m : BitVec 5} {v : Word} (l : Word) (hm : legalMode m = true)
    (hv : v.toNat % 4 = 0) : (s.takeException m v l).ModePcOk := by
  rw [takeException_entered]
  exact ⟨hm, hv⟩

/-! ## Status words -/

theorem StatusEffect.allows_refl (e : StatusEffect) (p : Psr) : e.allows p p := by
  cases e <;> simp [StatusEffect.allows]

theorem StatusEffect.allows_trans {e : StatusEffect} {p q r : Psr} (h1 : e.allows p q) (h2 : e.allows q r) :
    e.allows p r := by
  cases e with
  | none => exact Eq.trans h2 h1
  | flags =>
    obtain ⟨i1, f1, t1, m1⟩ := h1
    obtain ⟨i2, f2, t2, m2⟩ := h2
    exact ⟨i2.trans i1, f2.trans f1, t2.trans t1, m2.trans m1⟩
  | thumbBit =>
    simp only [StatusEffect.allows] at *
    rw [← h1, ← h2]
  | any => trivial

/-- The flags of an operation leave the other fields of the status word (40_arm_dataproc.md R302). -/
theorem aluFlags_allowed (op : AluOp) (a b : Word) (c : Bool) (p : Psr) :
    StatusEffect.flags.allows p (aluFlags op a b c p) := by
  cases op <;> exact ⟨rfl, rfl, rfl, rfl⟩

theorem sameSpsrs_trans {s u t : State} (h1 : sameSpsrs s u) (h2 : sameSpsrs u t) : sameSpsrs s t := by
  obtain ⟨a1, b1, c1, d1, e1⟩ := h1
  obtain ⟨a2, b2, c2, d2, e2⟩ := h2
  exact ⟨a2.trans a1, b2.trans b1, c2.trans c1, d2.trans d1, e2.trans e1⟩

theorem sameHidden_trans {s u t : State} (h1 : sameHidden s u) (h2 : sameHidden u t) : sameHidden s t := by
  obtain ⟨a1, b1, c1, d1, e1, f1⟩ := h1
  obtain ⟨a2, b2, c2, d2, e2, f2⟩ := h2
  exact ⟨a2.trans a1, b2.trans b1, c2.trans c1, d2.trans d1, e2.trans e1, f2.trans f1⟩

/-- A PSR restore leaves a status word that is as it was or has a legal mode, and changes nothing else (R41 to R43). -/
theorem psrRestore_eq_next {s t : State} (h : s.psrRestore = .next t) :
    ∃ p, (p = s.cpsr ∨ legalMode p.m = true) ∧ t = s.setFlags p := by
  rw [psrRestore_eq] at h
  split at h
  · cases h
    exact ⟨s.cpsr, .inl rfl, rfl⟩
  · next p _ =>
    split at h
    · next hp => cases h; exact ⟨p, .inr hp, rfl⟩
    · cases h

/-! ## Footprints -/

/-- What an instruction may change of the CPU: physical registers, fields of the status word, whether an SPSR, and
whether it may draw free values. -/
structure Footprint where
  regs : List (Fin 30)
  psr  : StatusEffect
  spsr : Bool := false
  draw : Bool := false

/-- A change of state that a footprint covers, and that keeps the mode legal and pc aligned. -/
structure Footprint.Covers (f : Footprint) (s t : State) : Prop where
  regs   : ∀ x : Fin 30, x ∉ f.regs → t.regs[x] = s.regs[x]
  psr    : f.psr.allows s.cpsr t.cpsr
  spsrs  : f.spsr = false → sameSpsrs s t
  hidden : sameHidden s t
  draws  : f.draw = false → t.freeCount = s.freeCount
  modePc : s.ModePcOk → t.ModePcOk

/-- A footprint bounds an outcome from a state when it covers the change to every next state. -/
def Footprint.Bounds (f : Footprint) (s : State) (o : Result) : Prop := ∀ t, o = .next t → f.Covers s t

variable {f : Footprint} {s : State}

theorem Footprint.Covers.trans {u t : State} (h1 : f.Covers s u) (h2 : f.Covers u t) : f.Covers s t where
  regs x hx := (h2.regs x hx).trans (h1.regs x hx)
  psr := StatusEffect.allows_trans h1.psr h2.psr
  spsrs h := sameSpsrs_trans (h1.spsrs h) (h2.spsrs h)
  hidden := sameHidden_trans h1.hidden h2.hidden
  draws h := (h2.draws h).trans (h1.draws h)
  modePc h := h2.modePc (h1.modePc h)

/-! ### One rule for each operation on the state -/

/-- Devices and cycles are outside every footprint. -/
theorem covers_bus (f : Footprint) (s : State) (d : Devices) (n : Nat) :
    f.Covers s { s with dev := d, stepCycles := n } where
  regs _ _ := rfl
  psr := f.psr.allows_refl _
  spsrs _ := ⟨rfl, rfl, rfl, rfl, rfl⟩
  hidden := ⟨rfl, rfl, rfl, rfl, rfl, rfl⟩
  draws _ := rfl
  modePc := ModePcOk_congr rfl rfl

theorem covers_charge (f : Footprint) (s : State) (n : Nat) : f.Covers s (s.charge n) := covers_bus f s _ _
theorem covers_store (f : Footprint) (s : State) (w : Width) (a v : Word) : f.Covers s (s.store w a v) :=
  covers_bus f s _ _

theorem covers_advance (f : Footprint) (s : State) : f.Covers s s.advance where
  regs _ _ := rfl
  psr := f.psr.allows_refl _
  spsrs _ := ⟨rfl, rfl, rfl, rfl, rfl⟩
  hidden := ⟨rfl, rfl, rfl, rfl, rfl, rfl⟩
  draws _ := rfl
  modePc h := ⟨h.1, nextPc_aligned h.2⟩

/-- A write of a register in the footprint; name r15 writes none. -/
theorem covers_setBankedReg {m : BitVec 5} {i : Reg} (v : Word) (h : i ≠ 15 → bankIndex m i ∈ f.regs) :
    f.Covers s (s.setBankedReg m i v) where
  regs x hx := by
    by_cases hi : i = 15
    · subst hi; simp
    · exact State.setBankedReg_regs_other s m i v x fun e => hx (e ▸ h hi)
  psr := by simpa using f.psr.allows_refl _
  spsrs _ := by simp [sameSpsrs]
  hidden := by simp [sameHidden]
  draws _ := by simp
  modePc := ModePcOk_congr (by simp) (by simp)

/-- A write of the status word that the footprint allows and that keeps T and a legal mode. -/
theorem covers_setFlags {p : Psr} (ha : f.psr.allows s.cpsr p) (ht : p.t = s.cpsr.t)
    (hm : legalMode s.cpsr.m = true → legalMode p.m = true) : f.Covers s (s.setFlags p) where
  regs _ _ := rfl
  psr := ha
  spsrs _ := ⟨rfl, rfl, rfl, rfl, rfl⟩
  hidden := ⟨rfl, rfl, rfl, rfl, rfl, rfl⟩
  draws _ := rfl
  modePc h := by
    refine ⟨hm h.1, ?_⟩
    have hpc := h.2
    unfold State.instrBytes at *
    rwa [State.setFlags_cpsr, State.setFlags_pc, ht]

/-- A branch under a status word that the footprint allows: the target is aligned for the new T. -/
theorem covers_branchUnder {p : Psr} (v : Word) (ha : f.psr.allows s.cpsr p)
    (hm : legalMode s.cpsr.m = true → legalMode p.m = true) : f.Covers s ((s.setFlags p).branchTo v) where
  regs _ _ := rfl
  psr := ha
  spsrs _ := ⟨rfl, rfl, rfl, rfl, rfl⟩
  hidden := ⟨rfl, rfl, rfl, rfl, rfl, rfl⟩
  draws _ := rfl
  modePc h := ⟨hm h.1, alignPc_aligned p.t v⟩

theorem covers_branchTo (f : Footprint) (s : State) (v : Word) : f.Covers s (s.branchTo v) :=
  covers_branchUnder v (f.psr.allows_refl _) id

theorem covers_skip (f : Footprint) (s : State) : f.Covers s s.skip :=
  (covers_charge f s _).trans (covers_advance f _)

/-- A write of the SPSR of a mode, where the footprint has SPSRs. -/
theorem covers_setSpsr {m : BitVec 5} {p : Psr} (h : f.spsr = true) : f.Covers s (s.setSpsr m p) where
  regs _ _ := by simp
  psr := by simpa using f.psr.allows_refl _
  spsrs h' := absurd h (by simp [h'])
  hidden := by simp [sameHidden]
  draws _ := by simp
  modePc := ModePcOk_congr (by simp) (by simp)

/-- An exception entry, where the footprint has r14 of its mode, the SPSRs and the whole status word (R606). -/
theorem covers_takeException {m : BitVec 5} {v : Word} (l : Word) (hp : f.psr = .any) (hs : f.spsr = true)
    (hr : bankIndex m 14 ∈ f.regs) (hm : legalMode m = true) (hv : v.toNat % 4 = 0) :
    f.Covers s (s.takeException m v l) where
  regs x hx := by
    have hne : ¬ ((14 : Reg) ≠ 15 ∧ bankIndex m 14 = x) := fun e => hx (e.2 ▸ hr)
    rw [takeException_entered]
    show ((s.setSpsr m s.cpsr).withReg m 14 l).regs[x] = s.regs[x]
    rw [withReg_regs, if_neg hne, State.setSpsr_regs]
  psr := by rw [hp]; trivial
  spsrs h := absurd hs (by simp [h])
  hidden := by simp [sameHidden, State.takeException]
  draws _ := by simp [State.takeException]
  modePc _ := takeException_modePcOk s l hm hv

/-- The draw of a flag that a multiply leaves meaningless (41_arm_multiply.md R347). -/
theorem covers_meaninglessFlag (old : Bool) (h : f.draw = true) : f.Covers s (s.meaninglessFlag old).2 := by
  unfold State.meaninglessFlag
  split
  · exact {
      regs := fun _ _ => rfl
      psr := f.psr.allows_refl _
      spsrs := fun _ => ⟨rfl, rfl, rfl, rfl, rfl⟩
      hidden := ⟨rfl, rfl, rfl, rfl, rfl, rfl⟩
      draws := fun h' => absurd h (by simp [h'])
      modePc := ModePcOk_congr rfl rfl }
  · exact covers_bus f s _ _

@[simp] theorem meaninglessFlag_cpsr (s : State) (old : Bool) : (s.meaninglessFlag old).2.cpsr = s.cpsr := by
  unfold State.meaninglessFlag
  split <;> rfl

end Sys2Proof.Machine
end

section
/-! The footprints of data processing and of multiplies. -/

open Sys2Proof

namespace Sys2Proof.Machine

variable {f : Footprint} {s : State}

/-! ### Outcomes -/

theorem bounds_next {t : State} (h : f.Covers s t) : f.Bounds s (.next t) :=
  fun _ ht => Host.Outcome.next.inj ht ▸ h

theorem bounds_refused (r : Refusal) : f.Bounds s (.refused r) := by
  intro _ ht
  cases ht

/-- What is covered before a meaning is covered with it. -/
theorem bounds_after {u : State} {o : Result} (h : f.Covers s u) (ho : f.Bounds u o) : f.Bounds s o :=
  fun t ht => h.trans (ho t ht)

/-- Two charges before a meaning are covered. -/
theorem bounds_charge2 {m n : Nat} {o : Result}
    (h : f.Bounds ((s.charge m).charge n) o) : f.Bounds s o :=
  bounds_after ((covers_charge f s m).trans (covers_charge f _ n)) h

/-- A skip is inside every footprint, so a condition costs none (30_encoding.md R205). -/
theorem bounds_whenCond {c : Cond} {g : State → Result} (h : f.Bounds s (g s)) : f.Bounds s (whenCond c s g) := by
  intro t ht
  obtain ⟨-, rfl⟩ | ⟨-, hg⟩ := whenCond_eq_next ht
  · exact covers_skip f s
  · exact h t hg

/-! ### Register names -/

theorem mem_bankList {m : BitVec 5} {l : List Reg} {i : Reg} (hl : i ∈ l) (hi : i ≠ 15) :
    bankIndex m i ∈ bankList m l :=
  List.mem_map_of_mem (List.mem_filter.mpr ⟨hl, by simpa using hi⟩)

/-- A write of a result covers its register or the branch. -/
theorem covers_writeResult {rd : Reg} (v : Word) (h : rd ≠ 15 → bankIndex s.cpsr.m rd ∈ f.regs) :
    f.Covers s (s.writeResult rd v) := by
  unfold State.writeResult
  split
  · exact covers_branchTo f s v
  · exact (covers_setBankedReg v h).trans (covers_advance f _)

/-- Charging and then writing a result covers the register named. -/
theorem bounds_writeResult {e : StatusEffect} {rd : Reg} (n : Nat) (v : Word) :
    ({ regs := bankList s.cpsr.m [rd], psr := e } : Footprint).Bounds s (.next ((s.charge n).writeResult rd v)) :=
  bounds_next ((covers_charge _ s n).trans (covers_writeResult v (mem_bankList (List.mem_singleton_self rd))))

/-! ### Data processing -/

theorem bounds_dpWrite {op : AluOp} {sets : Bool} {rd : Reg} {a : Word} {b : ShiftOut} :
    ({ regs := bankList s.cpsr.m [rd], psr := dpEffect sets rd } : Footprint).Bounds s (dpWrite op sets rd a b s) := by
  unfold dpWrite
  dsimp only
  split
  · next hrd =>
    cases sets
    · exact bounds_next (covers_branchTo _ s _)
    · intro t ht
      obtain ⟨u, hu, ht⟩ := andThen_eq_next ht
      obtain ⟨p, hp, rfl⟩ := psrRestore_eq_next hu
      cases ht
      refine covers_branchUnder _ (by simp [dpEffect, hrd, StatusEffect.allows]) fun hm => ?_
      obtain rfl | hp := hp
      · exact hm
      · exact hp
  · next hrd =>
    have hreg : Footprint.Covers { regs := bankList s.cpsr.m [rd], psr := dpEffect sets rd } s
        (s.setReg rd (aluResult op a b.value s.cpsr.c)) :=
      covers_setBankedReg _ (mem_bankList (List.mem_singleton_self rd))
    cases sets
    · exact bounds_next (hreg.trans (covers_advance _ _))
    · obtain ⟨hi, hf, ht, hm⟩ := aluFlags_allowed op a b.value b.carry s.cpsr
      refine bounds_next ((hreg.trans (covers_setFlags ?_ (by simpa using ht) (by simp [hm]))).trans
        (covers_advance _ _))
      simp [dpEffect, hrd, StatusEffect.allows, hi, hf, ht, hm]

theorem bounds_dpTest {op : AluOp} {a : Word} {b : ShiftOut} :
    ({ regs := [], psr := .flags } : Footprint).Bounds s (dpTest op a b s) :=
  have ha := aluFlags_allowed op a b.value b.carry s.cpsr
  have ⟨_, _, ht, hm⟩ := ha
  bounds_next ((covers_setFlags ha ht (by simp [hm])).trans (covers_advance _ _))

theorem bounds_dpImm {op : AluOp} {c : Cond} {sets : Bool} {rn rd : Reg} {rot : BitVec 4} {imm : BitVec 8} :
    ({ regs := bankList s.cpsr.m [rd], psr := dpEffect sets rd } : Footprint).Bounds s
      (dpImm op c sets rn rd rot imm s) :=
  bounds_whenCond (bounds_after (covers_charge _ s _) bounds_dpWrite)

theorem bounds_dpShift {op : AluOp} {c : Cond} {sets : Bool} {rn rd rm : Reg} {amt : BitVec 5} {sh : ShiftType} :
    ({ regs := bankList s.cpsr.m [rd], psr := dpEffect sets rd } : Footprint).Bounds s
      (dpShift op c sets rn rd amt sh rm s) :=
  bounds_whenCond (bounds_after (covers_charge _ s _) bounds_dpWrite)

theorem bounds_dpReg {op : AluOp} {c : Cond} {sets : Bool} {rn rd rs rm : Reg} {sh : ShiftType} :
    ({ regs := bankList s.cpsr.m [rd], psr := dpEffect sets rd } : Footprint).Bounds s
      (dpReg op c sets rn rd rs sh rm s) :=
  bounds_whenCond (bounds_charge2 bounds_dpWrite)

theorem bounds_testImm {op : AluOp} {c : Cond} {rn : Reg} {rot : BitVec 4} {imm : BitVec 8} :
    ({ regs := [], psr := .flags } : Footprint).Bounds s (testImm op c rn rot imm s) :=
  bounds_whenCond (bounds_after (covers_charge _ s _) bounds_dpTest)

theorem bounds_testShift {op : AluOp} {c : Cond} {rn rm : Reg} {amt : BitVec 5} {sh : ShiftType} :
    ({ regs := [], psr := .flags } : Footprint).Bounds s (testShift op c rn amt sh rm s) :=
  bounds_whenCond (bounds_after (covers_charge _ s _) bounds_dpTest)

theorem bounds_testReg {op : AluOp} {c : Cond} {rn rs rm : Reg} {sh : ShiftType} :
    ({ regs := [], psr := .flags } : Footprint).Bounds s (testReg op c rn rs sh rm s) :=
  bounds_whenCond (bounds_charge2 bounds_dpTest)

/-- No low register is r15, so that a low destination takes the flags. -/
theorem dpEffect_lowReg : ∀ rd : LowReg, dpEffect true (lowReg rd) = .flags := by decide

theorem bounds_thumbAlu {op : AluOp} {rd : LowReg} {a : Word} {b : ShiftOut} :
    ({ regs := bankList s.cpsr.m [lowReg rd], psr := .flags } : Footprint).Bounds s (thumbAlu op rd a b s) := by
  rw [← dpEffect_lowReg rd]
  exact bounds_after (covers_charge _ s _) bounds_dpWrite

theorem bounds_thumbShiftReg {sh : ShiftType} {rs rd : LowReg} :
    ({ regs := bankList s.cpsr.m [lowReg rd], psr := .flags } : Footprint).Bounds s (thumbShiftReg sh rs rd s) :=
  bounds_after (covers_charge _ s 1) bounds_thumbAlu

theorem bounds_thumbTest {op : AluOp} {a : Word} {b : ShiftOut} :
    ({ regs := [], psr := .flags } : Footprint).Bounds s (thumbTest op a b s) :=
  bounds_after (covers_charge _ s _) bounds_dpTest

/-! ### Multiplies -/

theorem covers_mulFlags (res : Word) (hp : f.psr = .flags) (hd : f.draw = true) : f.Covers s (s.mulFlags res) :=
  (covers_meaninglessFlag s.cpsr.c hd).trans
    (covers_setFlags (by simp [hp, StatusEffect.allows, setNZ]) (by simp [setNZ]) (by simp [setNZ]))

theorem covers_mulLongFlags (p : BitVec 64) (hp : f.psr = .flags) (hd : f.draw = true) :
    f.Covers s (s.mulLongFlags p) :=
  ((covers_meaninglessFlag s.cpsr.c hd).trans (covers_meaninglessFlag s.cpsr.v hd)).trans
    (covers_setFlags (by simp [hp, StatusEffect.allows]) (by simp) (by simp))

theorem bounds_mulWrite {sets : Bool} {rd : Reg} {res : Word} :
    ({ regs := bankList s.cpsr.m [rd], psr := mulEffect sets, draw := sets } : Footprint).Bounds s
      (mulWrite sets rd res s) := by
  have hrd := mem_bankList (m := s.cpsr.m) (List.mem_singleton_self rd)
  cases sets
  · exact bounds_next (covers_writeResult res hrd)
  · exact bounds_next ((covers_mulFlags res rfl rfl).trans (covers_writeResult res hrd))

/-- The registers and the way on of a long product, in a state of the mode the footprint is of. -/
theorem bounds_mulLongRegs {u : State} {hi lo : Reg} {vh vl : Word} (hu : u.cpsr.m = s.cpsr.m)
    (hf : f.regs = bankList s.cpsr.m [hi, lo]) :
    f.Bounds u
      (let v := (u.setReg lo vl).setReg hi vh
       if hi = 15 then .next (v.branchTo vh) else if lo = 15 then .next (v.branchTo vl) else .next v.advance) := by
  have hv : f.Covers u ((u.setReg lo vl).setReg hi vh) :=
    (covers_setBankedReg vl fun h => by rw [hf, hu]; exact mem_bankList (by simp) h).trans
      (covers_setBankedReg vh fun h => by rw [hf, State.setReg_cpsr, hu]; exact mem_bankList (by simp) h)
  dsimp only
  split
  · exact bounds_next (hv.trans (covers_branchTo f _ vh))
  · split
    · exact bounds_next (hv.trans (covers_branchTo f _ vl))
    · exact bounds_next (hv.trans (covers_advance f _))

theorem bounds_mulLongWrite {sets : Bool} {hi lo : Reg} {p : BitVec 64} :
    ({ regs := bankList s.cpsr.m [hi, lo], psr := mulEffect sets, draw := sets } : Footprint).Bounds s
      (mulLongWrite sets hi lo p s) := by
  cases sets
  · exact bounds_mulLongRegs rfl rfl
  · exact bounds_after (covers_mulLongFlags p rfl rfl) (bounds_mulLongRegs rfl rfl)

end Sys2Proof.Machine
end

section
/-! The footprints of status transfers, traps, branches, single transfers and block transfers. -/

open Sys2Proof

namespace Sys2Proof.Machine

variable {f : Footprint} {s : State}

/-! ### Status transfers and traps -/

/-- MSR never writes T of the CPSR (40_arm_dataproc.md R320). -/
theorem msrCpsr_t (mask : BitVec 4) (p v : Psr) : (msrCpsr mask p v).t = p.t := by
  unfold msrCpsr mergeFlags
  dsimp only
  split <;> split <;> rfl

theorem bounds_msrWrite {r : Bool} {mask : BitVec 4} {v : Word} :
    ({ regs := [], psr := .any, spsr := r } : Footprint).Bounds s (msrWrite r mask v s) := by
  refine bounds_after (covers_charge _ s (accessCost s.dev s.codeWidth s.pc .seq)) ?_
  unfold msrWrite
  dsimp only
  split
  · next hr =>
    subst hr
    split
    · exact bounds_next (covers_advance _ _)
    · split
      · exact bounds_refused _
      · exact bounds_next ((covers_setSpsr rfl).trans (covers_advance _ _))
  · split
    · next hm =>
      have hset : Footprint.Covers { regs := [], psr := .any, spsr := r } (s.chargeCode .seq)
          ((s.chargeCode .seq).setFlags (msrCpsr mask s.cpsr (psrOfWord v))) :=
        covers_setFlags trivial (msrCpsr_t _ _ _) fun _ => hm
      exact bounds_next (hset.trans (covers_advance _ _))
    · exact bounds_refused _

/-- A trap changes r14 and the SPSR of its mode and the status word (60_exceptions.md R606). -/
theorem bounds_trap {m : BitVec 5} {v : Word} (hm : legalMode m = true) (hv : v.toNat % 4 = 0) :
    ({ regs := [bankIndex m 14], psr := .any, spsr := true } : Footprint).Bounds s (s.trap m v) := by
  unfold State.trap
  split
  · exact bounds_refused _
  · exact bounds_next (((covers_charge _ s _).trans
      (covers_takeException _ rfl rfl (List.mem_singleton_self _) hm hv)).trans (covers_charge _ _ _))

theorem bounds_undefinedInstr :
    ({ regs := [bankIndex modeUnd 14], psr := .any, spsr := true } : Footprint).Bounds s s.undefinedInstr := by
  unfold State.undefinedInstr
  split
  · exact bounds_next (covers_skip _ s)
  · exact bounds_trap (by decide) (by decide)

theorem bounds_undefinedArm {c : Cond} :
    ({ regs := [bankIndex modeUnd 14], psr := .any, spsr := true } : Footprint).Bounds s (undefinedArm c s) :=
  bounds_whenCond bounds_undefinedInstr

/-! ### Branches -/

theorem covers_exchangeTo (v : Word) (hp : f.psr = .thumbBit) : f.Covers s (s.exchangeTo v) :=
  covers_branchUnder v (by simp [hp, StatusEffect.allows]) id

theorem bounds_branchTo {e : StatusEffect} (n : Nat) (v : Word) :
    ({ regs := [], psr := e } : Footprint).Bounds s (.next ((s.charge n).branchTo v)) :=
  bounds_next ((covers_charge _ s n).trans (covers_branchTo _ _ v))

theorem bounds_exchangeTo (n : Nat) (v : Word) :
    ({ regs := [], psr := .thumbBit } : Footprint).Bounds s (.next ((s.charge n).exchangeTo v)) :=
  bounds_next ((covers_charge _ s n).trans (covers_exchangeTo v rfl))

/-- A branch with link writes r14 (43_arm_branch_system.md R401, 46_thumb_branch.md R504). -/
theorem bounds_branchLink (n : Nat) (l v : Word) :
    ({ regs := bankList s.cpsr.m [14], psr := .none } : Footprint).Bounds s
      (.next (((s.charge n).setReg 14 l).branchTo v)) :=
  bounds_next (((covers_charge _ s n).trans
    (covers_setBankedReg l (mem_bankList (List.mem_singleton_self 14)))).trans (covers_branchTo _ _ v))

theorem bounds_thumbBcond {c : Cond} {off : BitVec 8} :
    ({ regs := [], psr := .none } : Footprint).Bounds s (execThumbBcond c off s) := by
  unfold execThumbBcond
  split
  · exact bounds_branchTo _ _
  · exact bounds_next (covers_skip _ s)

/-! ### Single transfers -/

theorem covers_writeBase {o : AddrOut} (h : o.base ≠ 15 → bankIndex s.cpsr.m o.base ∈ f.regs) :
    f.Covers s (writeBase o s) := by
  unfold writeBase
  split
  · exact covers_setBankedReg _ h
  · exact covers_bus f s _ _

@[simp] theorem writeBase_cpsr (o : AddrOut) (s : State) : (writeBase o s).cpsr = s.cpsr := by
  rw [writeBase_applyBase, applyBase_cpsr]

theorem covers_finishBase (f : Footprint) (o : AddrOut) (s : State) : f.Covers s (finishBase o s) := by
  rw [finishBase_eq]
  split
  · exact covers_branchTo f s _
  · exact covers_advance f s

theorem bounds_loadFinish {o : AddrOut} {rd rn : Reg} {v : Word} (hrn : o.base = rn) :
    ({ regs := bankList s.cpsr.m [rd, rn], psr := .none } : Footprint).Bounds s (loadFinish o rd v s) := by
  subst hrn
  have hbase : Footprint.Covers { regs := bankList s.cpsr.m [rd, o.base], psr := .none } s (writeBase o s) :=
    covers_writeBase (mem_bankList (by simp))
  unfold loadFinish
  dsimp only
  split
  · exact bounds_next (hbase.trans (covers_branchTo _ _ v))
  · refine bounds_next ((hbase.trans (covers_setBankedReg v fun h => ?_)).trans (covers_finishBase _ o _))
    rw [writeBase_cpsr]
    exact mem_bankList (by simp) h

/-- The charge of a load precedes what it writes. -/
theorem bounds_load {o : AddrOut} {rd rn : Reg} {v : Word} {w : Width} {a : Word} (hrn : o.base = rn) :
    ({ regs := bankList s.cpsr.m [rd, rn], psr := .none } : Footprint).Bounds s
      (loadFinish o rd v (chargeLoad w a s)) := by
  rw [chargeLoad_eq]
  exact bounds_after (covers_charge _ s _) (bounds_loadFinish hrn)

theorem bounds_storeReg {w : Width} {o : AddrOut} {rd rn : Reg} (hrn : o.base = rn) :
    ({ regs := bankList s.cpsr.m [rn], psr := .none } : Footprint).Bounds s (storeReg w o rd s) := by
  subst hrn
  unfold storeReg
  rw [chargeStore_eq]
  exact bounds_next ((((covers_charge _ s _).trans (covers_store _ _ w _ _)).trans
    (covers_writeBase (mem_bankList (by simp)))).trans (covers_finishBase _ o _))

theorem addr3_base (s : State) (m : Mode3) : (addr3 s m).base = m.rn := by
  unfold addr3
  dsimp only
  split <;> rfl

theorem bounds_swap {w : Width} {rd : Reg} {a v x : Word} :
    ({ regs := bankList s.cpsr.m [rd], psr := .none } : Footprint).Bounds s
      (.next (((chargeSwap w a s).store w a v).writeResult rd x)) := by
  rw [chargeSwap_eq]
  exact bounds_next (((covers_charge _ s _).trans (covers_store _ _ w a v)).trans
    (covers_writeResult x (mem_bankList (List.mem_singleton_self rd))))

theorem bounds_thumbLoad {w : Width} {rd : LowReg} {a v : Word} :
    ({ regs := bankList s.cpsr.m [lowReg rd], psr := .none } : Footprint).Bounds s (thumbLoad w rd a v s) := by
  unfold thumbLoad
  rw [chargeLoad_eq]
  exact bounds_writeResult _ v

theorem bounds_thumbStore {w : Width} {rd : LowReg} {a : Word} :
    ({ regs := [], psr := .none } : Footprint).Bounds s (thumbStore w rd a s) := by
  unfold thumbStore
  rw [chargeStore_eq]
  exact bounds_next (((covers_charge _ s _).trans (covers_store _ _ w a _)).trans (covers_advance _ _))

/-! ### Block transfers -/

theorem fst_mem_of_mem_blockValues {rs : List Reg} {a : Word} {rv : Reg × Word} (h : rv ∈ blockValues s rs a) :
    rv.1 ∈ rs := by
  induction rs generalizing a with
  | nil => cases h
  | cons r rs ih =>
    obtain rfl | h := List.mem_cons.mp h
    · exact List.mem_cons_self
    · exact List.mem_cons_of_mem r (ih h)

theorem chargeBlock_eq_charge (q : Access) (rs : List Reg) (a : Word) (s : State) :
    ∃ n, chargeBlock q rs a s = s.charge n := by
  induction rs generalizing q a s with
  | nil => exact ⟨0, rfl⟩
  | cons r rs ih =>
    obtain ⟨n, h⟩ := ih .seq (a + 4) (s.chargeData .word a q)
    exact ⟨_, h.trans (charge_charge s _ n)⟩

theorem covers_setLoaded {m : BitVec 5} {vals : List (Reg × Word)}
    (h : ∀ rv ∈ vals, rv.1 ≠ 15 → bankIndex m rv.1 ∈ f.regs) : f.Covers s (setLoaded m vals s) := by
  induction vals generalizing s with
  | nil => exact covers_bus f s _ _
  | cons rv vals ih =>
    exact (covers_setBankedReg rv.2 (h rv List.mem_cons_self)).trans
      (ih fun x hx => h x (List.mem_cons_of_mem rv hx))

theorem bounds_blockLoad {wback user restore inList : Bool} {rn : Reg} {b : BlockOut}
    (hbase : rn ≠ 15 → bankIndex s.cpsr.m rn ∈ f.regs)
    (hlist : ∀ r ∈ b.regs, r ≠ 15 → bankIndex (if user then modeUsr else s.cpsr.m) r ∈ f.regs)
    (hpsr : restore = true → f.psr = .any) : f.Bounds s (blockLoad wback user restore rn inList b s) := by
  unfold blockLoad
  obtain ⟨n, hn⟩ := chargeBlock_eq_charge .nonseq b.regs b.first (s.chargeCode .seq)
  rw [hn]
  generalize hvals : blockValues s b.regs b.first = vals
  generalize ho : loadBase wback rn inList b.wback = o
  have hob : o.base = rn := ho ▸ rfl
  have hloaded : f.Covers s (setLoaded (if user then modeUsr else s.cpsr.m) vals
      (writeBase o (((s.chargeCode .seq).charge n).charge 1))) := by
    refine ((((covers_charge f s _).trans (covers_charge f _ n)).trans (covers_charge f _ 1)).trans
      (covers_writeBase (hob ▸ hbase))).trans (covers_setLoaded fun rv hrv => hlist _ ?_)
    exact fst_mem_of_mem_blockValues (hvals ▸ hrv)
  dsimp only
  split
  · exact bounds_next (hloaded.trans (covers_finishBase f o _))
  · next v _ =>
    split
    · next hr =>
      intro t ht
      obtain ⟨u, hu, ht⟩ := andThen_eq_next ht
      obtain ⟨p, hp, rfl⟩ := psrRestore_eq_next hu
      cases ht
      refine hloaded.trans (covers_branchUnder v (by rw [hpsr hr]; trivial) fun hm => ?_)
      obtain rfl | hp := hp
      · exact hm
      · exact hp
    · exact bounds_next (hloaded.trans (covers_branchTo f _ v))

theorem covers_blockStores {user : Bool} {o : AddrOut} {q : Access} {rs : List Reg} {a : Word}
    (h : o.base ≠ 15 → bankIndex s.cpsr.m o.base ∈ f.regs) : f.Covers s (blockStores user o q rs a s) := by
  induction rs generalizing o q a s with
  | nil => exact covers_bus f s _ _
  | cons r rs ih =>
    exact (((covers_charge f s _).trans (covers_store f _ .word a _)).trans (covers_writeBase h)).trans
      (ih (by rw [writeBase_cpsr]; exact h))

theorem bounds_blockStore {wback user : Bool} {rn : Reg} {b : BlockOut} :
    ({ regs := bankList s.cpsr.m [rn], psr := .none } : Footprint).Bounds s (blockStore wback user rn b s) :=
  bounds_next (((covers_charge _ s _).trans
    (covers_blockStores (mem_bankList (List.mem_singleton_self rn)))).trans (covers_finishBase _ _ _))

/-- A block transfer moves the registers of its list, or r15 alone (42_arm_loadstore.md R380, R383). -/
theorem mem_blockAddr_regs {p u : Bool} {base : Word} {list : BitVec 16} {r : Reg}
    (h : r ∈ (blockAddr p u base list).regs) (hr : r ≠ 15) : r ∈ listRegs list := by
  unfold blockAddr at h
  dsimp only at h
  split at h
  · exact absurd (List.mem_singleton.mp h) hr
  · exact h

/-- The bit of r15 in a list is no other register's. -/
theorem pcBit_getLsbD : ∀ (hi : Bool) (r : Reg), r ≠ 15 →
    (if hi then BitVec.ofNat 16 (2 ^ (15 : Reg).val) else 0 : BitVec 16).getLsbD r.val = false := by decide

/-- But for r15, a Thumb list with r15 has the registers of the list without it (45_thumb_loadstore.md R492). -/
theorem mem_listRegs_thumbList {list : BitVec 8} {hi : Bool} {r : Reg} (h : r ∈ listRegs (thumbList list hi 15))
    (hr : r ≠ 15) : r ∈ listRegs (thumbList list false 0) := by
  simp only [listRegs, thumbList, List.mem_filter, BitVec.getLsbD_or, pcBit_getLsbD hi r hr] at h
  simpa [listRegs, thumbList] using h

theorem bounds_armLdm {c : Cond} {p u us w : Bool} {rn : Reg} {list : BitVec 16} :
    ({ regs := bankList s.cpsr.m [rn] ++
        bankList (if us && !list.getLsbD 15 then modeUsr else s.cpsr.m) (listRegs list)
       psr := if us && list.getLsbD 15 then .any else .none } : Footprint).Bounds s
      (execArmLdm c p u us w rn list s) := by
  refine bounds_whenCond (bounds_blockLoad (fun h => ?_) (fun r hr h => ?_) fun h => if_pos h)
  · exact List.mem_append_left _ (mem_bankList (List.mem_singleton_self rn) h)
  · exact List.mem_append_right _ (mem_bankList (mem_blockAddr_regs hr h) h)

theorem bounds_thumbPop {r : Bool} {list : BitVec 8} :
    ({ regs := bankList s.cpsr.m [13] ++ bankList s.cpsr.m (listRegs (thumbList list false 0))
       psr := .none } : Footprint).Bounds s (execThumbPop r list s) := by
  refine bounds_blockLoad (fun h => ?_) (fun r hr h => ?_) nofun
  · exact List.mem_append_left _ (mem_bankList (List.mem_singleton_self 13) h)
  · exact List.mem_append_right _ (mem_bankList (mem_listRegs_thumbList (mem_blockAddr_regs hr h) h) h)

theorem bounds_thumbLdmia {rb : LowReg} {list : BitVec 8} :
    ({ regs := bankList s.cpsr.m [lowReg rb] ++ bankList s.cpsr.m (listRegs (thumbList list false 0))
       psr := .none } : Footprint).Bounds s (execThumbLdmia rb list s) := by
  refine bounds_blockLoad (fun h => ?_) (fun r hr h => ?_) nofun
  · exact List.mem_append_left _ (mem_bankList (List.mem_singleton_self _) h)
  · exact List.mem_append_right _ (mem_bankList (mem_blockAddr_regs hr h) h)

end Sys2Proof.Machine
end

section
/-! The footprint of every instruction but a software interrupt, which may change anything. -/

open Sys2Proof

namespace Sys2Proof.Machine

/-- What an instruction may change, as the model's tables say it. -/
def footprint (i : Instr) (s : State) : Footprint where
  regs := writtenRegs i s
  psr := statusEffect i
  spsr := mayWriteSpsr i
  draw := mayDraw i

/-- An instruction that is no software interrupt stays inside its footprint. -/
theorem exec_bounds (i : Instr) (s : State) (h : isSwi i = false) : (footprint i s).Bounds s (exec i s) := by
  -- Unfolded before the split, each arm of exec is found by its constructor alone.
  unfold exec
  cases i with
  | armAndImm | armEorImm | armSubImm | armRsbImm | armAddImm | armAdcImm | armSbcImm | armRscImm | armOrrImm
  | armMovImm | armBicImm | armMvnImm => exact bounds_dpImm
  | armTstImm | armTeqImm | armCmpImm | armCmnImm => exact bounds_testImm
  | armAndShift | armEorShift | armSubShift | armRsbShift | armAddShift | armAdcShift | armSbcShift | armRscShift
  | armOrrShift | armMovShift | armBicShift | armMvnShift => exact bounds_dpShift
  | armTstShift | armTeqShift | armCmpShift | armCmnShift => exact bounds_testShift
  | armAndReg | armEorReg | armSubReg | armRsbReg | armAddReg | armAdcReg | armSbcReg | armRscReg | armOrrReg
  | armMovReg | armBicReg | armMvnReg => exact bounds_dpReg
  | armTstReg | armTeqReg | armCmpReg | armCmnReg => exact bounds_testReg
  | armMul | armMla => exact bounds_whenCond (bounds_charge2 bounds_mulWrite)
  | armUmull | armUmlal | armSmull | armSmlal => exact bounds_whenCond (bounds_charge2 bounds_mulLongWrite)
  | armMrs => exact bounds_whenCond (bounds_writeResult _ _)
  | armMsrReg | armMsrImm => exact bounds_whenCond bounds_msrWrite
  | armUndefSignedStore | armUndefMulSpace | armUndefControl | armUndefTestImm | armUndefMedia | armStc | armLdc
  | armCdp | armMcr | armMrc => exact bounds_undefinedArm
  | thumbUndef1011 | thumbUndefCond | thumbUndefBlx => exact bounds_undefinedInstr
  | armSwp | armSwpb => exact bounds_whenCond bounds_swap
  | armLdrPre | armLdrPost | armLdrbPre | armLdrbPost | armLdrt | armLdrbt => exact bounds_whenCond (bounds_load rfl)
  | armLdrh | armLdrsb | armLdrsh => exact bounds_whenCond (bounds_load (addr3_base s _))
  | armStrPre | armStrPost | armStrbPre | armStrbPost | armStrt | armStrbt =>
    exact bounds_whenCond (bounds_storeReg rfl)
  | armStrh => exact bounds_whenCond (bounds_storeReg (addr3_base s _))
  | armStm => exact bounds_whenCond bounds_blockStore
  | armLdm => exact bounds_armLdm
  | armB => exact bounds_whenCond (bounds_branchTo _ _)
  | armBl => exact bounds_whenCond (bounds_branchLink _ _ _)
  | armBx => exact bounds_whenCond (bounds_exchangeTo _ _)
  | armSwi | thumbSwi => cases h
  | thumbLslImm | thumbLsrImm | thumbAsrImm | thumbAddReg | thumbSubReg | thumbAddImm3 | thumbSubImm3 | thumbMovImm
  | thumbAddImm8 | thumbSubImm8 | thumbAnd | thumbEor | thumbAdc | thumbSbc | thumbNeg | thumbOrr | thumbBic
  | thumbMvn => exact bounds_thumbAlu
  | thumbLslReg | thumbLsrReg | thumbAsrReg | thumbRor => exact bounds_thumbShiftReg
  | thumbCmpImm | thumbTst | thumbCmp | thumbCmn | thumbCmpHi => exact bounds_thumbTest
  | thumbMul => exact bounds_charge2 bounds_mulWrite
  | thumbAddHi | thumbMovHi | thumbAddPc | thumbAddSp | thumbIncSp | thumbDecSp | thumbBlPrefix =>
    exact bounds_writeResult _ _
  | thumbBx => exact bounds_exchangeTo _ _
  | thumbB => exact bounds_branchTo _ _
  | thumbBcond => exact bounds_thumbBcond
  | thumbBlSuffix => exact bounds_branchLink _ _ _
  | thumbLdrPc | thumbLdrReg | thumbLdrbReg | thumbLdsbReg | thumbLdrhReg | thumbLdshReg | thumbLdrImm | thumbLdrbImm
  | thumbLdrhImm | thumbLdrSp => exact bounds_thumbLoad
  | thumbStrReg | thumbStrbReg | thumbStrhReg | thumbStrImm | thumbStrbImm | thumbStrhImm | thumbStrSp =>
    exact bounds_thumbStore
  | thumbPush | thumbStmia => exact bounds_blockStore
  | thumbPop => exact bounds_thumbPop
  | thumbLdmia => exact bounds_thumbLdmia

/-- A software interrupt's footprint is the whole CPU. -/
theorem footprint_of_isSwi {i : Instr} (s : State) (h : isSwi i = true) :
    footprint i s = { regs := List.finRange 30, psr := .any, spsr := true, draw := true } := by
  cases i with
  | armSwi | thumbSwi => rfl
  | _ => cases h

end Sys2Proof.Machine

open Sys2Proof.Machine

/-- Settles O42, from the footprint of every instruction; a software interrupt's leaves nothing to show. -/
theorem cpuFrame : Obligations.CpuFrame := by
  intro i s t ht
  cases hi : isSwi i with
  | false =>
    obtain ⟨hregs, hpsr, hspsrs, hhidden, hdraws, -⟩ := exec_bounds i s hi t ht
    exact ⟨hregs, hpsr, hspsrs, fun _ => hhidden, hdraws⟩
  | true =>
    obtain ⟨hr, hp, hs, hd⟩ := Footprint.mk.inj (footprint_of_isSwi s hi)
    exact ⟨fun x hx => absurd (List.mem_finRange x) (hr ▸ hx), by rw [hp]; trivial,
      fun h => absurd hs (by simp [h]), nofun, fun h => absurd hd (by simp [h])⟩
end

section
/-! What the body of an HLE service does to the state: charged bus accesses and draws (47_swi_hle.md R520, R556). Every
loop of a service is such a run, whatever its length, so that what a single access keeps, a service's body keeps. -/

open Sys2Proof

namespace Sys2Proof.Machine

/-- From a state to another by charges, bus writes and draws alone. A write of an OPEN service clears no bit of IF
(60_exceptions.md R626). -/
inductive BusRun (s : State) : State → Prop where
  | refl : BusRun s s
  | charge {t : State} (h : BusRun s t) (n : Nat) : BusRun s (t.charge n)
  | store {t : State} (h : BusRun s t) (w : Width) (a x : Word) : BusRun s (t.store w a x)
  | raise {t : State} (h : BusRun s t) (x : Half) :
      BusRun s { t with dev := { t.dev with iflag := t.dev.iflag ||| x } }
  | draw {t : State} (h : BusRun s t) : BusRun s t.drawWord.2

namespace BusRun

/-- A run changes devices, cycles and the count of draws alone. -/
theorem frame {s t : State} (h : BusRun s t) :
    ∃ d n k, t = { s with dev := d, stepCycles := n, freeCount := k } := by
  induction h with
  | refl => exact ⟨_, _, _, rfl⟩
  | charge _ n ih => obtain ⟨d, m, k, rfl⟩ := ih; exact ⟨_, _, _, rfl⟩
  | store _ w a x ih => obtain ⟨d, m, k, rfl⟩ := ih; exact ⟨_, _, _, rfl⟩
  | raise _ x ih => obtain ⟨d, m, k, rfl⟩ := ih; exact ⟨_, _, _, rfl⟩
  | draw _ ih => obtain ⟨d, m, k, rfl⟩ := ih; exact ⟨_, _, _, rfl⟩

theorem cpsr {s t : State} (h : BusRun s t) : t.cpsr = s.cpsr := by
  obtain ⟨_, _, _, rfl⟩ := h.frame
  rfl

theorem pc {s t : State} (h : BusRun s t) : t.pc = s.pc := by
  obtain ⟨_, _, _, rfl⟩ := h.frame
  rfl

variable {s : State} {v : Svc}

theorem read (h : BusRun s v.st) (w : Width) (a : Word) : BusRun s (v.read w a).2.st := h.charge _

theorem write (h : BusRun s v.st) (w : Width) (a x : Word) : BusRun s (v.write w a x).st := (h.charge _).store w a x

theorem openAccess (h : BusRun s v.st) (a : OpenAccess) : BusRun s (v.openAccess a).st := by
  unfold Svc.openAccess
  dsimp only
  split
  · exact (h.write _ _ _).raise _
  · exact h.read _ _

theorem openAccesses (l : List OpenAccess) (h : BusRun s v.st) : BusRun s (l.foldl Svc.openAccess v).st := by
  induction l generalizing v with
  | nil => exact h
  | cons a l ih => exact ih (h.openAccess a)

/-! ### Copying, filling and affine set-up -/

theorem fillWords (n : Nat) (a x : Word) (h : BusRun s v.st) : BusRun s (v.fillWords n a x).st := by
  induction n generalizing a v with
  | zero => exact h
  | succ n ih => exact ih _ (h.write _ _ _)

theorem clearBytes (n : Nat) (a : Word) (h : BusRun s v.st) : BusRun s (v.clearBytes n a).st := by
  induction n generalizing a v with
  | zero => exact h
  | succ n ih => exact ih _ (h.write _ _ _)

theorem clearArea (flags : Word) (i : Nat) (base : Word) (words : Nat) (h : BusRun s v.st) :
    BusRun s (clearArea flags i base words v).st := by
  unfold Machine.clearArea
  split
  · exact h.fillWords _ _ _
  · exact h

theorem clearBiosIf (x : Half) (h : BusRun s v.st) : BusRun s (clearBiosIf x v).st := (h.read _ _).write _ _ _

theorem copyUnits (n : Nat) (w : Width) (src dst : Word) (h : BusRun s v.st) :
    BusRun s (v.copyUnits n w src dst).st := by
  induction n generalizing src dst v with
  | zero => exact h
  | succ n ih => exact ih _ _ ((h.read _ _).write _ _ _)

theorem fillUnits (n : Nat) (w : Width) (dst x : Word) (h : BusRun s v.st) : BusRun s (v.fillUnits n w dst x).st := by
  induction n generalizing dst v with
  | zero => exact h
  | succ n ih => exact ih _ (h.write _ _ _)

/-- An entry is seven reads and six writes (47_swi_hle.md R537). -/
theorem bgAffineEntry (src dst : Word) (h : BusRun s v.st) : BusRun s (bgAffineEntry src dst v).st :=
  have hreads := ((((((h.read .word src).read .word (src + 4)).read .half (src + 8)).read .half (src + 10)).read .half
    (src + 12)).read .half (src + 14)).read .half (src + 16)
  (((((hreads.write _ _ _).write _ _ _).write _ _ _).write _ _ _).write _ _ _).write _ _ _

theorem bgAffineLoop (n : Nat) (src dst : Word) (h : BusRun s v.st) : BusRun s (bgAffineLoop n src dst v).st := by
  induction n generalizing src dst v with
  | zero => exact h
  | succ n ih => exact ih _ _ (h.bgAffineEntry src dst)

/-- An entry is three reads and four writes (R538). -/
theorem objAffineEntry (src dst stride : Word) (h : BusRun s v.st) : BusRun s (objAffineEntry src dst stride v).st :=
  have hreads := ((h.read .half src).read .half (src + 2)).read .half (src + 4)
  (((hreads.write _ _ _).write _ _ _).write _ _ _).write _ _ _

theorem objAffineLoop (n : Nat) (src dst stride : Word) (h : BusRun s v.st) :
    BusRun s (objAffineLoop n src dst stride v).st := by
  induction n generalizing src dst v with
  | zero => exact h
  | succ n ih => exact ih _ _ (h.objAffineEntry src dst stride)

/-! ### Bit unpacking -/

theorem unpackUnit (i : UnpackInfo) (x : Word) {u : UnpackState} (h : BusRun s u.svc.st) :
    BusRun s (unpackUnit i x u).svc.st := by
  unfold Machine.unpackUnit
  dsimp only
  split
  · exact h.write _ _ _
  · exact h

theorem unpackByte (i : UnpackInfo) (n b : Nat) {u : UnpackState} (h : BusRun s u.svc.st) :
    BusRun s (unpackByte i n b u).svc.st := by
  induction n generalizing b u with
  | zero => exact h
  | succ n ih => exact ih _ (h.unpackUnit i _)

theorem unpackLoop (i : UnpackInfo) (n : Nat) (src : Word) {u : UnpackState} (h : BusRun s u.svc.st) :
    BusRun s (unpackLoop i n src u).svc.st := by
  induction n generalizing src u with
  | zero => exact h
  | succ n ih => exact ih _ (unpackByte i _ _ (h.read _ _))

/-! ### Decompression -/

section
variable {u : Unzip}

theorem nextByte (h : BusRun s u.svc.st) : BusRun s u.nextByte.2.svc.st := h.read _ _

theorem emit (vram : Bool) (b : Byte) (h : BusRun s u.svc.st) : BusRun s (u.emit vram b).svc.st := by
  unfold Unzip.emit
  split
  · split
    · exact h
    · exact h.write _ _ _
  · exact h.write _ _ _

theorem lzCopy (vram : Bool) (size : Nat) (disp : Word) (n : Nat) (h : BusRun s u.svc.st) :
    BusRun s (lzCopy vram size disp n u).svc.st := by
  induction n generalizing u with
  | zero => exact h
  | succ n ih =>
    unfold Machine.lzCopy
    split
    · exact ih (emit vram _ (h.read _ _))
    · exact h

theorem lzBlock (vram : Bool) (size : Nat) (isRef : Bool) (h : BusRun s u.svc.st) :
    BusRun s (lzBlock vram size isRef u).svc.st := by
  unfold Machine.lzBlock
  dsimp only
  split
  · exact h.nextByte.nextByte.lzCopy _ _ _ _
  · exact h.nextByte.emit _ _

theorem lzLoop (vram : Bool) (size fuel k : Nat) (flags : Byte) (h : BusRun s u.svc.st) :
    BusRun s (lzLoop vram size fuel k flags u).svc.st := by
  induction fuel generalizing k flags u with
  | zero => exact h
  | succ fuel ih =>
    unfold Machine.lzLoop
    split
    · split
      · exact ih _ _ (h.nextByte.lzBlock _ _ _)
      · exact ih _ _ (h.lzBlock _ _ _)
    · exact h

theorem rlFill (vram : Bool) (size : Nat) (b : Byte) (n : Nat) (h : BusRun s u.svc.st) :
    BusRun s (rlFill vram size b n u).svc.st := by
  induction n generalizing u with
  | zero => exact h
  | succ n ih =>
    unfold Machine.rlFill
    split
    · exact ih (h.emit _ _)
    · exact h

theorem rlCopy (vram : Bool) (size n : Nat) (h : BusRun s u.svc.st) : BusRun s (rlCopy vram size n u).svc.st := by
  induction n generalizing u with
  | zero => exact h
  | succ n ih =>
    unfold Machine.rlCopy
    split
    · exact ih (h.nextByte.emit _ _)
    · exact h

theorem rlLoop (vram : Bool) (size fuel : Nat) (h : BusRun s u.svc.st) : BusRun s (rlLoop vram size fuel u).svc.st := by
  induction fuel generalizing u with
  | zero => exact h
  | succ fuel ih =>
    unfold Machine.rlLoop
    split
    · dsimp only
      split
      · exact ih (h.nextByte.nextByte.rlFill _ _ _ _)
      · exact ih (h.nextByte.rlCopy _ _ _)
    · exact h

theorem diff8Loop (vram : Bool) (n : Nat) (prev : Byte) (h : BusRun s u.svc.st) :
    BusRun s (diff8Loop vram n prev u).svc.st := by
  induction n generalizing prev u with
  | zero => exact h
  | succ n ih => exact ih _ (h.nextByte.emit _ _)

theorem diff16Loop (n : Nat) (prev : Half) (h : BusRun s u.svc.st) : BusRun s (diff16Loop n prev u).svc.st := by
  induction n generalizing prev u with
  | zero => exact h
  | succ n ih => exact ih _ (h.nextByte.nextByte.write _ _ _)

end

/-! ### The Huffman tree -/

section
variable {g : Huff}

theorem huffRefill (h : BusRun s g.svc.st) : BusRun s g.refill.svc.st :=
  (((h.read _ _).read _ _).read _ _).read _ _

theorem huffBit (h : BusRun s g.svc.st) : BusRun s g.bit.2.svc.st := by
  unfold Huff.bit
  dsimp only
  split
  · exact h.huffRefill.read _ _
  · exact h.read _ _

/-- A walk is a run, round by round, whether or not it meets a data value (47_swi_hle.md R543). -/
theorem huffWalk (h : BusRun s g.svc.st) : BusRun s g.walk.2.svc.st := by
  obtain ⟨hmore, hdone⟩ := rounds_keeps (f := Huff.round) (P := fun a => BusRun s a.svc.st)
    (Q := fun b => BusRun s b.2.svc.st) (fun a a1 ha e => by
      obtain ⟨-, _, e1⟩ | ⟨-, e1⟩ := huff_round_cases a <;> rw [e1] at e <;> cases e
      exact ha.huffBit)
    (fun a b ha e => by
      unfold Huff.round at e
      dsimp only at e
      split at e <;> cases e
      exact ha.huffBit.read _ _) 102 h
  unfold Huff.walk
  split
  · next e => exact hdone _ e
  · next e => exact (hmore _ e).draw
  · exact h.draw

theorem huffEmit (bitsz x : Nat) (h : BusRun s g.svc.st) : BusRun s (g.emit bitsz x).svc.st := by
  unfold Huff.emit
  dsimp only
  split
  · exact h
  · split
    · exact h.write _ _ _
    · exact BusRun.write (v := g.svc.draw.2) h.draw _ _ _

theorem huffLoop (root : Word) (bitsz size fuel : Nat) (h : BusRun s g.svc.st) :
    BusRun s (huffLoop root bitsz size fuel g).svc.st := by
  induction fuel generalizing g with
  | zero => exact h
  | succ fuel ih =>
    unfold Machine.huffLoop
    split
    · exact h
    · exact ih ((huffWalk (g := { g with node := root }) h).huffEmit _ _)

end

end BusRun

end Sys2Proof.Machine
end

section
/-! Legal modes and aligned pcs through the HLE services, the instructions and the step (10_state.md R31, R35, R36). -/

open Sys2Proof

namespace Sys2Proof.Machine

/-! ### How a service ends -/

/-- A service's outcome with the caller's status word, at the instruction after the SWI or, suspended, on it
(47_swi_hle.md R520, R527, R529). -/
def Returns (ret : Word) (s : State) (o : Result) : Prop :=
  ∀ t, o = .next t → t.cpsr = s.cpsr ∧ (t.pc = ret ∨ t.pc = s.pc)

variable {ret : Word} {s : State}

theorem returns_svcReturn {u : State} (h : u.cpsr = s.cpsr) : Returns ret s (svcReturn ret u) :=
  fun _ ht => Host.Outcome.next.inj ht ▸ ⟨h, .inl rfl⟩

theorem returns_svcStay {u : State} (h : u.cpsr = s.cpsr) (hpc : u.pc = s.pc) : Returns ret s (svcStay u) :=
  fun _ ht => Host.Outcome.next.inj ht ▸ ⟨h, .inr hpc⟩

/-- A service whose body is a run returns. -/
theorem BusRun.returns {u : State} (h : BusRun s u) : Returns ret s (svcReturn ret u) := returns_svcReturn h.cpsr

/-- A service whose body is a run, and then a write of a register, returns. -/
theorem BusRun.returns_setReg {u : State} (h : BusRun s u) (i : Reg) (v : Word) :
    Returns ret s (svcReturn ret (u.setReg i v)) := returns_svcReturn (by rw [State.setReg_cpsr, h.cpsr])

/-! ### The services -/

theorem svcRegisterRamReset_returns : Returns ret s (svcRegisterRamReset ret s) := by
  have hrun : BusRun s ((Svc.start s).write .half 0x04000000 0x0080).st := BusRun.refl.write (v := Svc.start s) _ _ _
  exact returns_svcReturn
    (((((hrun.clearArea _ _ _ _).clearArea _ _ _ _).clearArea _ _ _ _).clearArea _ _ _ _).clearArea _ _ _ _).cpsr

/-- The first execution of an IntrWait keeps the status word and pc. -/
theorem intrWaitFirst_control (discard : Bool) (mask : Half) (v : Svc) :
    (intrWaitFirst discard mask v).st.cpsr = v.st.cpsr ∧ (intrWaitFirst discard mask v).st.pc = v.st.pc := by
  have hrun (u : Svc) : BusRun u.st (clearBiosIf mask u).st := BusRun.refl.clearBiosIf mask
  unfold intrWaitFirst
  cases discard with
  | false => exact ⟨rfl, rfl⟩
  | true => exact ⟨(hrun _).cpsr, (hrun _).pc⟩

theorem intrWait_returns {u : State} {discard : Bool} {mask : Half} (hu : u.cpsr = s.cpsr) (hpc : u.pc = s.pc) :
    Returns ret s (intrWait ret discard mask u) := by
  unfold intrWait
  dsimp only
  generalize hv : (if u.intrwaitMask = 0 then intrWaitFirst discard mask (Svc.start u) else Svc.start u) = v
  have hcontrol : v.st.cpsr = s.cpsr ∧ v.st.pc = s.pc := by
    obtain ⟨h1, h2⟩ := intrWaitFirst_control discard mask (Svc.start u)
    subst hv
    split
    · exact ⟨h1.trans hu, h2.trans hpc⟩
    · exact ⟨hu, hpc⟩
  have hread : BusRun v.st (v.read .half biosIf).2.st := BusRun.refl.read _ _
  split
  · exact returns_svcStay (hread.cpsr.trans hcontrol.1) (hread.pc.trans hcontrol.2)
  · refine returns_svcReturn ?_
    dsimp only
    exact (hread.clearBiosIf _).cpsr.trans hcontrol.1

theorem divide_returns {num den : Word} : Returns ret s (divide ret num den s) := by
  unfold divide
  split
  · exact returns_svcStay rfl rfl
  · exact returns_svcReturn (by simp)

theorem cpuCopy_returns {w : Width} {fill : Bool} {n : Nat} {src dst : Word} :
    Returns ret s (cpuCopy w fill n src dst ret s) := by
  have hstart : BusRun s (Svc.start s).st := .refl
  unfold cpuCopy
  dsimp only
  split
  · exact returns_svcReturn rfl
  · split
    · exact ((hstart.read _ _).fillUnits _ _ _ _).returns
    · exact (hstart.copyUnits _ _ _ _).returns

theorem decompress_returns {body : Nat → Unzip → Unzip}
    (hbody : ∀ size u, BusRun s u.svc.st → BusRun s (body size u).svc.st) :
    Returns ret s (decompress body ret s) := by
  have hstart : BusRun s (Svc.start s).st := .refl
  unfold decompress
  split
  · exact returns_svcReturn rfl
  · exact (hbody _ _ (hstart.read _ _)).returns

theorem svcBitUnPack_returns : Returns ret s (svcBitUnPack ret s) := by
  have hstart : BusRun s (Svc.start s).st := .refl
  unfold svcBitUnPack
  split
  · exact returns_svcReturn rfl
  · exact (BusRun.unpackLoop _ _ _ ((((hstart.read _ _).read _ _).read _ _).read _ _)).returns

theorem svcHuff_returns : Returns ret s (svcHuff ret s) := by
  have hstart : BusRun s (Svc.start s).st := .refl
  unfold svcHuff
  split
  · exact returns_svcReturn rfl
  · exact (BusRun.huffLoop _ _ _ _ ((hstart.read _ _).read _ _)).returns

theorem svcOpen_returns : Returns ret s (svcOpen ret s) := by
  have hrun := BusRun.openAccesses (v := Svc.start s) (Config.openAccesses s.freeCount) .refl
  obtain ⟨r, hr⟩ := writeOpenRegs_frame (Config.openRegs s.freeCount)
    ((Config.openAccesses s.freeCount).foldl Svc.openAccess (Svc.start s)).st
  unfold svcOpen
  dsimp only
  rw [hr]
  exact returns_svcReturn hrun.cpsr

theorem svcSound_returns : Returns ret s (svcSound ret s) := by
  unfold svcSound
  split
  · exact svcOpen_returns
  · exact returns_svcReturn rfl

theorem svcMultiBoot_returns : Returns ret s (svcMultiBoot ret s) := by
  unfold svcMultiBoot
  split
  · exact svcOpen_returns
  · exact BusRun.refl.returns_setReg 0 1

/-- Every service but SoftReset and HardReset returns, or is suspended on its SWI; the cases are in the order of
47_swi_hle.md R521. -/
theorem runService_returns {n : Nat} (h0 : n ≠ 0x00) (h26 : n ≠ 0x26) : Returns ret s (runService n ret s) := by
  have hstart : BusRun s (Svc.start s).st := .refl
  unfold runService
  split
  any_goals exact svcSound_returns
  · exact absurd rfl h0
  · exact svcRegisterRamReset_returns
  · exact returns_svcReturn rfl
  · exact returns_svcReturn rfl
  · exact intrWait_returns rfl rfl
  · exact intrWait_returns (by simp) (by simp)
  · exact divide_returns
  · exact divide_returns
  · exact BusRun.refl.returns_setReg 0 _
  · exact BusRun.refl.returns_setReg 0 _
  · exact BusRun.refl.returns_setReg 0 _
  · exact cpuCopy_returns
  · exact cpuCopy_returns
  · exact BusRun.refl.returns_setReg 0 _
  · exact (hstart.bgAffineLoop _ _ _).returns
  · exact (hstart.objAffineLoop _ _ _ _).returns
  · exact svcBitUnPack_returns
  · exact decompress_returns fun _ _ h => h.lzLoop _ _ _ _ _
  · exact decompress_returns fun _ _ h => h.lzLoop _ _ _ _ _
  · exact svcHuff_returns
  · exact decompress_returns fun _ _ h => h.rlLoop _ _ _
  · exact decompress_returns fun _ _ h => h.rlLoop _ _ _
  · exact decompress_returns fun _ _ h => h.diff8Loop _ _ _
  · exact decompress_returns fun _ _ h => h.diff8Loop _ _ _
  · exact decompress_returns fun _ _ h => h.diff16Loop _ _
  · exact returns_svcReturn rfl
  · exact (hstart.read _ _).returns_setReg 0 _
  · exact svcMultiBoot_returns
  · exact absurd rfl h26
  · exact (hstart.write _ _ _).returns
  · exact returns_svcReturn rfl

/-! ### Resets and software interrupts -/

/-- An outcome whose next state, if it has one, has a legal mode and an aligned pc. -/
def EndsModePcOk (o : Result) : Prop := ∀ t, o = .next t → t.ModePcOk

/-- A return to ARM state, in a legal mode, at an aligned address. -/
theorem svcReturn_arm_modePcOk {u : State} (hm : legalMode u.cpsr.m = true) (ht : u.cpsr.t = false)
    (hret : ret.toNat % 4 = 0) : EndsModePcOk (svcReturn ret u) := by
  intro t h
  rw [svcReturn_eq] at h
  cases h
  refine ⟨hm, ?_⟩
  show ret.toNat % (if u.cpsr.t then 2 else 4 : Word).toNat = 0
  rw [ht]
  exact hret

theorem svcSoftReset_modePcOk : EndsModePcOk (svcSoftReset s) := by
  unfold svcSoftReset
  dsimp only
  refine svcReturn_arm_modePcOk ?_ ?_ ?_
  · rw [State.setFlags_cpsr]; rfl
  · rw [State.setFlags_cpsr]; rfl
  · split <;> rfl

/-- Both resets leave a legal mode and an aligned pc (70_reset_and_hazards.md R850). -/
theorem resetMachine_modePcOk : EndsModePcOk (resetMachine s) := by
  have hdirect : (directBoot s).ModePcOk :=
    ⟨rfl, show (0x08000000 : Word).toNat % (4 : Word).toNat = 0 by decide⟩
  have hfirmware : (firmwareBoot s).ModePcOk := ⟨rfl, rfl⟩
  unfold resetMachine
  split
  · exact fun _ ht => Host.Outcome.next.inj ht ▸ hdirect
  · exact fun _ ht => Host.Outcome.next.inj ht ▸ hfirmware
  · exact fun _ ht => nomatch ht

theorem svcHardReset_modePcOk : EndsModePcOk (svcHardReset s) := by
  intro t ht
  obtain ⟨u, hu, ht⟩ := andThen_eq_next ht
  cases ht
  exact ModePcOk_congr rfl rfl (resetMachine_modePcOk u hu)

/-- A service that returns to an aligned address, or stays, keeps the mode and an aligned pc. -/
theorem Returns.modePcOk {o : Result} (h : Returns ret s o) (hs : s.ModePcOk)
    (hret : ret.toNat % s.instrBytes.toNat = 0) : EndsModePcOk o := by
  intro t ht
  obtain ⟨hcpsr, hpc⟩ := h t ht
  refine ⟨hcpsr ▸ hs.1, ?_⟩
  rw [instrBytes_congr hcpsr]
  obtain hpc | hpc := hpc
  · rw [hpc]; exact hret
  · rw [hpc]; exact hs.2

theorem runService_modePcOk {n : Nat} (hs : s.ModePcOk) (hret : ret.toNat % s.instrBytes.toNat = 0) :
    EndsModePcOk (runService n ret s) := by
  by_cases h0 : n = 0x00
  · subst h0; exact svcSoftReset_modePcOk
  by_cases h26 : n = 0x26
  · subst h26; exact svcHardReset_modePcOk
  · exact (runService_returns h0 h26).modePcOk hs hret

theorem softwareInterrupt_modePcOk {n : Nat} (hs : s.ModePcOk) : EndsModePcOk (softwareInterrupt n s) := by
  unfold softwareInterrupt
  split
  · have hcpsr : (hleEnter (s.pc + s.instrBytes) s).cpsr = s.cpsr := by simp [hleEnter_eq]
    have hpc : (hleEnter (s.pc + s.instrBytes) s).pc = s.pc := by simp [hleEnter_eq]
    refine runService_modePcOk (ModePcOk_congr hcpsr hpc hs) ?_
    rw [instrBytes_congr hcpsr]
    exact nextPc_aligned hs.2
  · exact fun t ht => (bounds_trap (by decide) (by decide) t ht).modePc hs

/-- Every instruction keeps a legal mode and an aligned pc, in ARM and in Thumb state. -/
theorem exec_modePcOk (i : Instr) (hs : s.ModePcOk) : EndsModePcOk (exec i s) := by
  intro t ht
  cases hi : isSwi i with
  | false => exact (exec_bounds i s hi t ht).modePc hs
  | true =>
    unfold exec at ht
    cases i with
    | armSwi c comment =>
      obtain ⟨-, rfl⟩ | ⟨-, h⟩ := whenCond_eq_next ht
      · exact ⟨hs.1, nextPc_aligned hs.2⟩
      · exact softwareInterrupt_modePcOk hs t h
    | thumbSwi value => exact softwareInterrupt_modePcOk hs t ht
    | _ => cases hi

/-! ### The step -/

theorem prefetch_control (s : State) : s.prefetch.cpsr = s.cpsr ∧ s.prefetch.pc = s.pc := by
  unfold State.prefetch
  dsimp only
  split
  · split <;> exact ⟨rfl, rfl⟩
  · exact ⟨rfl, rfl⟩

theorem pushSnapshot_control (s : State) : s.pushSnapshot.cpsr = s.cpsr ∧ s.pushSnapshot.pc = s.pc := by
  unfold State.pushSnapshot
  split <;> exact ⟨rfl, rfl⟩

theorem beforeInstr_modePcOk (hs : s.ModePcOk) : (beforeInstr s).ModePcOk := by
  obtain ⟨h1, h2⟩ := prefetch_control ({ s.noStores with stepCycles := 0 }.pushSnapshot)
  obtain ⟨h3, h4⟩ := pushSnapshot_control { s.noStores with stepCycles := 0 }
  exact ModePcOk_congr (h1.trans h3) (h2.trans h4) hs

theorem fetchInstr_modePcOk (hs : s.ModePcOk) : (fetchInstr s).2.ModePcOk := by
  obtain ⟨w, k, -, hf⟩ := fetch_cases (beforeInstr s)
  unfold fetchInstr
  rw [hf]
  exact ModePcOk_congr rfl rfl (beforeInstr_modePcOk hs)

theorem priced_modePcOk (hs : s.ModePcOk) : s.priced.ModePcOk := by
  obtain ⟨n, k, hp⟩ := priced_eq s
  rw [hp]
  exact ModePcOk_congr rfl rfl hs

theorem pollInterrupts_modePcOk (hs : s.ModePcOk) : (pollInterrupts s).ModePcOk := by
  unfold pollInterrupts
  split
  · exact ModePcOk_congr (s := s.takeException modeIrq 0x18 (s.pc + 4)) rfl rfl
      (takeException_modePcOk s _ (by decide) (by decide))
  · exact hs

theorem advanceDevices_modePcOk {c : Nat} {t : State} (ht : advanceDevices c s = .next t) (hs : s.ModePcOk) :
    t.ModePcOk := by
  obtain ⟨d, n, -, rfl⟩ := advanceDevices_eq_next ht
  exact ModePcOk_congr rfl rfl hs

theorem pollAndCount_modePcOk {t : State} (ht : pollAndCount s = .next t) (hs : s.ModePcOk) : t.ModePcOk := by
  obtain ⟨u, hu, ht⟩ := andThen_eq_next ht
  cases ht
  refine ModePcOk_congr rfl rfl (s := u) ?_
  unfold pollAndAdvance at hu
  split at hu
  · exact advanceDevices_modePcOk hu (pollInterrupts_modePcOk hs)
  · cases hu; exact hs

theorem endRunning_modePcOk (b : State) (hs : s.ModePcOk) : (endRunning b s).ModePcOk := by
  unfold endRunning
  dsimp only
  split <;> exact ModePcOk_congr rfl rfl hs

/-- What follows the instruction keeps the invariant: only the poll touches the CPU (70_reset_and_hazards.md R856). -/
theorem afterInstr_modePcOk (b : State) (hs : s.ModePcOk) : EndsModePcOk (afterInstr b s) := by
  intro t ht
  obtain ⟨u, hu, ht⟩ := andThen_eq_next ht
  obtain ⟨d, n, -, rfl⟩ := runImmediateDma_eq_next hu
  obtain ⟨v, hv, ht⟩ := andThen_eq_next ht
  obtain ⟨w, hw, ht⟩ := andThen_eq_next ht
  cases ht
  have hadvance : v.ModePcOk := advanceDevices_modePcOk hv (ModePcOk_congr rfl rfl hs)
  exact endRunning_modePcOk b (pollAndCount_modePcOk hw (ModePcOk_congr rfl rfl hadvance))

theorem runningStep_modePcOk (hs : s.ModePcOk) : EndsModePcOk (runningStep s) := by
  intro t ht
  unfold runningStep at ht
  split at ht
  · cases ht
    exact ModePcOk_congr rfl rfl hs
  · obtain ⟨u, hu, ht⟩ := andThen_eq_next ht
    have hexec := exec_modePcOk _ (fetchInstr_modePcOk hs) u hu
    exact afterInstr_modePcOk _ (priced_modePcOk hexec) t ht

theorem haltedStep_modePcOk (hs : s.ModePcOk) : EndsModePcOk (haltedStep s) := by
  intro t ht
  obtain ⟨u, hu, ht⟩ := andThen_eq_next ht
  have hadvance : u.ModePcOk := advanceDevices_modePcOk hu (ModePcOk_congr rfl rfl hs)
  refine pollAndCount_modePcOk ht ?_
  split <;> exact ModePcOk_congr rfl rfl hadvance

theorem stoppedStep_modePcOk (hs : s.ModePcOk) : EndsModePcOk (stoppedStep s) := by
  intro t ht
  unfold stoppedStep at ht
  dsimp only at ht
  split at ht
  · exact pollAndCount_modePcOk ht (ModePcOk_congr rfl rfl hs)
  · cases ht
    exact ModePcOk_congr rfl rfl hs

end Sys2Proof.Machine

open Sys2Proof.Machine

/-- Settles O59, by run state; in a Running step every instruction keeps the invariant, and after it the poll alone
touches the CPU. -/
theorem stepKeepsModeAndPc : Obligations.StepKeepsModeAndPc := by
  intro s t hs ht
  unfold step stepMachine at ht
  split at ht
  · exact runningStep_modePcOk hs t ht
  · exact haltedStep_modePcOk hs t ht
  · exact stoppedStep_modePcOk hs t ht
  · cases ht
    exact ModePcOk_congr rfl rfl hs
end

section
/-! What an instruction that is no software interrupt does to the devices: bus writes at the places the model lists for
it, and nothing else (20_memory.md R101, R117). What every bus write keeps, such an instruction keeps. -/

open Sys2Proof

namespace Sys2Proof.Machine

/-- From devices to devices by bus writes at the places listed, in order, all of them or only the first ones: none where
the condition of an instruction fails. -/
inductive Writes : List (Width × Word) → Devices → Devices → Prop where
  | stop (l : List (Width × Word)) (d : Devices) : Writes l d d
  | write {l : List (Width × Word)} {d e : Devices} {w : Width} {a : Word} (v : Word)
      (h : Writes l (busWrite d w a v) e) : Writes ((w, a) :: l) d e

/-- What every bus write keeps, bus writes keep. -/
theorem Writes.keeps {P : Devices → Prop} (hP : ∀ d w a v, P d → P (busWrite d w a v)) {l : List (Width × Word)}
    {d e : Devices} (h : Writes l d e) (hd : P d) : P e := by
  induction h with
  | stop => exact hd
  | write v _ ih => exact ih (hP _ _ _ v hd)

/-- An outcome whose next state has the devices of a state, but for bus writes at the places listed. -/
def StoresAt (l : List (Width × Word)) (s : State) (o : Result) : Prop := ∀ t, o = .next t → Writes l s.dev t.dev

variable {l : List (Width × Word)} {s : State}

theorem storesAt_next {t : State} (h : Writes l s.dev t.dev) : StoresAt l s (.next t) :=
  fun _ ht => Host.Outcome.next.inj ht ▸ h

/-- An outcome that leaves the devices alone. -/
theorem storesAt_idle {t : State} (h : t.dev = s.dev) : StoresAt l s (.next t) := storesAt_next (h ▸ .stop l s.dev)

theorem storesAt_refused (r : Refusal) : StoresAt l s (.refused r) := by
  intro _ ht
  cases ht

/-- What precedes a meaning and leaves the devices alone does not count. -/
theorem storesAt_after {u : State} {o : Result} (hu : u.dev = s.dev) (h : StoresAt l u o) : StoresAt l s o :=
  fun t ht => hu ▸ h t ht

/-- Two charges before a meaning do not count. -/
theorem storesAt_charge2 {m n : Nat} {o : Result} (h : StoresAt l ((s.charge m).charge n) o) : StoresAt l s o :=
  storesAt_after rfl h

theorem storesAt_whenCond {c : Cond} {g : State → Result} (h : StoresAt l s (g s)) :
    StoresAt l s (whenCond c s g) := by
  intro t ht
  obtain ⟨-, rfl⟩ | ⟨-, hg⟩ := whenCond_eq_next ht
  · exact .stop l s.dev
  · exact h t hg

/-- A conditional meaning that leaves the devices alone. -/
theorem storesAt_whenIdle {c : Cond} {g : State → State} (h : (g s).dev = s.dev) :
    StoresAt l s (whenCond c s fun s => .next (g s)) := storesAt_whenCond (storesAt_idle h)

/-! ### Operations that store nothing -/

@[simp] theorem writeResult_dev (s : State) (rd : Reg) (v : Word) : (s.writeResult rd v).dev = s.dev := by
  unfold State.writeResult
  split <;> simp

@[simp] theorem meaninglessFlag_dev (s : State) (old : Bool) : (s.meaninglessFlag old).2.dev = s.dev := by
  unfold State.meaninglessFlag
  split <;> rfl

@[simp] theorem mulFlags_dev (s : State) (res : Word) : (s.mulFlags res).dev = s.dev := by simp [State.mulFlags]

@[simp] theorem mulLongFlags_dev (s : State) (p : BitVec 64) : (s.mulLongFlags p).dev = s.dev := by
  simp [State.mulLongFlags]

@[simp] theorem writeBase_dev (o : AddrOut) (s : State) : (writeBase o s).dev = s.dev := by
  rw [writeBase_applyBase, applyBase_dev]

@[simp] theorem finishBase_dev (o : AddrOut) (s : State) : (finishBase o s).dev = s.dev := by
  rw [finishBase_eq]
  split <;> simp

@[simp] theorem setLoaded_dev (m : BitVec 5) (vals : List (Reg × Word)) (s : State) :
    (setLoaded m vals s).dev = s.dev := by
  induction vals generalizing s with
  | nil => rfl
  | cons rv vals ih => exact (ih _).trans (State.setBankedReg_dev ..)

@[simp] theorem chargeBlock_dev (q : Access) (rs : List Reg) (a : Word) (s : State) :
    (chargeBlock q rs a s).dev = s.dev := by
  obtain ⟨n, h⟩ := chargeBlock_eq_charge q rs a s
  rw [h, State.charge_dev]

/-- A PSR restore, and then a branch. -/
theorem storesAt_psrRestore (v : Word) : StoresAt l s (andThen s.psrRestore fun t => .next (t.branchTo v)) := by
  intro t ht
  obtain ⟨u, hu, ht⟩ := andThen_eq_next ht
  obtain ⟨p, -, rfl⟩ := psrRestore_eq_next hu
  cases ht
  exact .stop l s.dev

theorem storesAt_dpWrite {op : AluOp} {sets : Bool} {rd : Reg} {a : Word} {b : ShiftOut} :
    StoresAt l s (dpWrite op sets rd a b s) := by
  unfold dpWrite
  dsimp only
  split
  · cases sets
    · exact storesAt_idle rfl
    · exact storesAt_psrRestore _
  · cases sets <;> exact storesAt_idle (by simp)

theorem storesAt_dpImm {op : AluOp} {c : Cond} {sets : Bool} {rn rd : Reg} {rot : BitVec 4} {imm : BitVec 8} :
    StoresAt l s (dpImm op c sets rn rd rot imm s) :=
  storesAt_whenCond (storesAt_after (State.charge_dev s _) storesAt_dpWrite)

theorem storesAt_dpShift {op : AluOp} {c : Cond} {sets : Bool} {rn rd rm : Reg} {amt : BitVec 5} {sh : ShiftType} :
    StoresAt l s (dpShift op c sets rn rd amt sh rm s) :=
  storesAt_whenCond (storesAt_after (State.charge_dev s _) storesAt_dpWrite)

theorem storesAt_dpReg {op : AluOp} {c : Cond} {sets : Bool} {rn rd rs rm : Reg} {sh : ShiftType} :
    StoresAt l s (dpReg op c sets rn rd rs sh rm s) :=
  storesAt_whenCond (storesAt_charge2 storesAt_dpWrite)

theorem storesAt_testImm {op : AluOp} {c : Cond} {rn : Reg} {rot : BitVec 4} {imm : BitVec 8} :
    StoresAt l s (testImm op c rn rot imm s) := storesAt_whenIdle rfl

theorem storesAt_testShift {op : AluOp} {c : Cond} {rn rm : Reg} {amt : BitVec 5} {sh : ShiftType} :
    StoresAt l s (testShift op c rn amt sh rm s) := storesAt_whenIdle rfl

theorem storesAt_testReg {op : AluOp} {c : Cond} {rn rs rm : Reg} {sh : ShiftType} :
    StoresAt l s (testReg op c rn rs sh rm s) := storesAt_whenIdle rfl

theorem storesAt_thumbAlu {op : AluOp} {rd : LowReg} {a : Word} {b : ShiftOut} :
    StoresAt l s (thumbAlu op rd a b s) := storesAt_after (State.charge_dev s _) storesAt_dpWrite

theorem storesAt_mulWrite {sets : Bool} {rd : Reg} {res : Word} : StoresAt l s (mulWrite sets rd res s) := by
  cases sets <;> exact storesAt_idle (by simp)

theorem storesAt_mulLongWrite {sets : Bool} {hi lo : Reg} {p : BitVec 64} :
    StoresAt l s (mulLongWrite sets hi lo p s) := by
  have hdev : (if sets then s.mulLongFlags p else s).dev = s.dev := by cases sets <;> simp
  unfold mulLongWrite
  dsimp only
  split
  · exact storesAt_idle (by simpa using hdev)
  · split <;> exact storesAt_idle (by simpa using hdev)

theorem storesAt_msrWrite {r : Bool} {mask : BitVec 4} {v : Word} : StoresAt l s (msrWrite r mask v s) := by
  unfold msrWrite
  dsimp only
  split
  · split
    · exact storesAt_idle rfl
    · split
      · exact storesAt_refused _
      · exact storesAt_idle (by simp)
  · split
    · exact storesAt_idle rfl
    · exact storesAt_refused _

theorem storesAt_trap {m : BitVec 5} {v : Word} : StoresAt l s (s.trap m v) := by
  unfold State.trap
  split
  · exact storesAt_refused _
  · exact storesAt_idle (by simp [State.takeException])

theorem storesAt_undefinedInstr : StoresAt l s s.undefinedInstr := by
  unfold State.undefinedInstr
  split
  · exact storesAt_idle rfl
  · exact storesAt_trap

theorem storesAt_thumbBcond {c : Cond} {off : BitVec 8} : StoresAt l s (execThumbBcond c off s) := by
  unfold execThumbBcond
  split <;> exact storesAt_idle rfl

theorem storesAt_loadFinish {o : AddrOut} {rd : Reg} {v : Word} : StoresAt l s (loadFinish o rd v s) := by
  unfold loadFinish
  dsimp only
  split <;> exact storesAt_idle (by simp)

theorem storesAt_load {o : AddrOut} {rd : Reg} {v : Word} {w : Width} {a : Word} :
    StoresAt l s (loadFinish o rd v (chargeLoad w a s)) := storesAt_after (by simp [chargeLoad]) storesAt_loadFinish

theorem storesAt_thumbLoad {w : Width} {rd : LowReg} {a v : Word} : StoresAt l s (thumbLoad w rd a v s) :=
  storesAt_idle (by simp [chargeLoad])

theorem storesAt_blockLoad {wback user restore inList : Bool} {rn : Reg} {b : BlockOut} :
    StoresAt l s (blockLoad wback user restore rn inList b s) := by
  unfold blockLoad
  dsimp only
  split
  · exact storesAt_idle (by simp)
  · split
    · exact storesAt_after (by simp) (storesAt_psrRestore _)
    · exact storesAt_idle (by simp)

/-! ### Stores -/

/-- One store, whatever is done to the CPU around it. -/
theorem storesAt_store {t : State} {w : Width} {a : Word} (v : Word) (h : t.dev = busWrite s.dev w a v) :
    StoresAt [(w, a)] s (.next t) := storesAt_next (.write v (h ▸ .stop [] _))

theorem storesAt_storeReg {w : Width} {o : AddrOut} {rd : Reg} : StoresAt [(w, o.addr)] s (storeReg w o rd s) :=
  storesAt_store (s.readRegFar rd) (by simp [chargeStore])

theorem storesAt_swap {w : Width} {rd : Reg} {a v x : Word} :
    StoresAt [(w, a)] s (.next (((chargeSwap w a s).store w a v).writeResult rd x)) :=
  storesAt_store v (by simp [chargeSwap])

theorem storesAt_thumbStore {w : Width} {rd : LowReg} {a : Word} : StoresAt [(w, a)] s (thumbStore w rd a s) :=
  storesAt_store (s.readReg (lowReg rd)) rfl

/-- A Thumb offset in units of a width is that many bytes (45_thumb_loadstore.md R479 to R486). -/
theorem zeroExtend_mul_ofNat {n : Nat} (off : BitVec n) (k : Nat) :
    off.zeroExtend 32 * BitVec.ofNat 32 k = BitVec.ofNat 32 (k * off.toNat) := by
  apply BitVec.eq_of_toNat_eq
  simp [BitVec.toNat_mul, Nat.mul_comm k]

theorem storesAt_thumbStoreImm {w : Width} {off : BitVec 5} {rb rd : LowReg} :
    StoresAt [(w, thumbBaseImm s rb off.toNat w.bytes)] s (thumbStore w rd (thumbImmAddr s w off rb) s) := by
  rw [thumbImmAddr, zeroExtend_mul_ofNat off w.bytes]
  exact storesAt_thumbStore

theorem storesAt_thumbStoreSp {rd : LowReg} {word : BitVec 8} :
    StoresAt [(.word, s.readReg 13 + BitVec.ofNat 32 (4 * word.toNat))] s
      (thumbStore .word rd (thumbSpAddr s word) s) := by
  rw [← zeroExtend_mul_ofNat word 4]
  exact storesAt_thumbStore

/-- The words of a block store go to ascending addresses (42_arm_loadstore.md R380, R382). -/
theorem writes_blockStores {user : Bool} {o : AddrOut} {q : Access} {rs : List Reg} {a : Word} :
    Writes ((List.range rs.length).map fun k => (.word, a + BitVec.ofNat 32 (4 * k))) s.dev
      (blockStores user o q rs a s).dev := by
  induction rs generalizing o q a s with
  | nil => exact .stop [] s.dev
  | cons r rs ih =>
    have hnext (k : Nat) : a + BitVec.ofNat 32 (4 * (k + 1)) = a + 4 + BitVec.ofNat 32 (4 * k) := by
      rw [Nat.mul_succ, Nat.add_comm (4 * k), BitVec.ofNat_add, ← BitVec.add_assoc]
      rfl
    have hbase : (writeBase o ((s.chargeData .word a q).store .word a (blockSource user r s))).dev =
        busWrite s.dev .word a (blockSource user r s) := by simp
    rw [List.length_cons, List.range_succ_eq_map, List.map_cons, List.map_map]
    simp only [Function.comp_def, Nat.succ_eq_add_one, hnext, Nat.mul_zero, BitVec.add_zero]
    exact .write (blockSource user r s) (hbase ▸ ih)

theorem storesAt_blockStore (f : BlockForm) {wback user : Bool} {rn : Reg} :
    StoresAt ((f.stores s).map fun x => (Width.word, x.1)) s (blockStore wback user rn f.out s) := by
  rw [BlockForm.stores, List.map_map]
  refine storesAt_next ?_
  rw [finishBase_dev]
  exact writes_blockStores (s := s.chargeCode .nonseq) (a := f.out.first)

/-- An instruction that is no software interrupt stores where the model says, and does nothing else to the devices. -/
theorem exec_storesAt (i : Instr) (s : State) (h : isSwi i = false) : StoresAt (storesTo i s) s (exec i s) := by
  unfold exec
  cases i with
  | armAndImm | armEorImm | armSubImm | armRsbImm | armAddImm | armAdcImm | armSbcImm | armRscImm | armOrrImm
  | armMovImm | armBicImm | armMvnImm => exact storesAt_dpImm
  | armAndShift | armEorShift | armSubShift | armRsbShift | armAddShift | armAdcShift | armSbcShift | armRscShift
  | armOrrShift | armMovShift | armBicShift | armMvnShift => exact storesAt_dpShift
  | armAndReg | armEorReg | armSubReg | armRsbReg | armAddReg | armAdcReg | armSbcReg | armRscReg | armOrrReg
  | armMovReg | armBicReg | armMvnReg => exact storesAt_dpReg
  | armTstImm | armTeqImm | armCmpImm | armCmnImm => exact storesAt_testImm
  | armTstShift | armTeqShift | armCmpShift | armCmnShift => exact storesAt_testShift
  | armTstReg | armTeqReg | armCmpReg | armCmnReg => exact storesAt_testReg
  | armMul | armMla => exact storesAt_whenCond (storesAt_charge2 storesAt_mulWrite)
  | armUmull | armUmlal | armSmull | armSmlal =>
    exact storesAt_whenCond (storesAt_charge2 storesAt_mulLongWrite)
  | armMrs => exact storesAt_whenIdle (by simp)
  | armMsrReg | armMsrImm => exact storesAt_whenCond storesAt_msrWrite
  | armUndefSignedStore | armUndefMulSpace | armUndefControl | armUndefTestImm | armUndefMedia | armStc | armLdc
  | armCdp | armMcr | armMrc => exact storesAt_whenCond storesAt_undefinedInstr
  | thumbUndef1011 | thumbUndefCond | thumbUndefBlx => exact storesAt_undefinedInstr
  | armSwp | armSwpb => exact storesAt_whenCond storesAt_swap
  | armLdrPre | armLdrPost | armLdrbPre | armLdrbPost | armLdrt | armLdrbt | armLdrh | armLdrsb | armLdrsh =>
    exact storesAt_whenCond storesAt_load
  | armStrPre | armStrPost | armStrbPre | armStrbPost | armStrt | armStrbt | armStrh =>
    exact storesAt_whenCond storesAt_storeReg
  | armStm c p u us w rn list =>
    exact storesAt_whenCond (storesAt_blockStore
      { cond := c, wback := w, user := us, rn := rn, out := blockAddr p u (s.readReg rn) list })
  | armLdm => exact storesAt_whenCond storesAt_blockLoad
  | armB | armBx => exact storesAt_whenIdle rfl
  | armBl => exact storesAt_whenIdle (by simp)
  | armSwi | thumbSwi => cases h
  | thumbLslImm | thumbLsrImm | thumbAsrImm | thumbAddReg | thumbSubReg | thumbAddImm3 | thumbSubImm3 | thumbMovImm
  | thumbAddImm8 | thumbSubImm8 | thumbAnd | thumbEor | thumbAdc | thumbSbc | thumbNeg | thumbOrr | thumbBic
  | thumbMvn => exact storesAt_thumbAlu
  | thumbLslReg | thumbLsrReg | thumbAsrReg | thumbRor => exact storesAt_after (State.charge_dev s 1) storesAt_thumbAlu
  | thumbCmpImm | thumbTst | thumbCmp | thumbCmn | thumbCmpHi => exact storesAt_idle rfl
  | thumbMul => exact storesAt_charge2 storesAt_mulWrite
  | thumbAddHi | thumbMovHi | thumbAddPc | thumbAddSp | thumbIncSp | thumbDecSp | thumbBlPrefix =>
    exact storesAt_idle (writeResult_dev _ _ _)
  | thumbBx | thumbB => exact storesAt_idle rfl
  | thumbBcond => exact storesAt_thumbBcond
  | thumbBlSuffix => exact storesAt_idle (State.setReg_dev _ _ _)
  | thumbLdrPc | thumbLdrReg | thumbLdrbReg | thumbLdsbReg | thumbLdrhReg | thumbLdshReg | thumbLdrImm | thumbLdrbImm
  | thumbLdrhImm | thumbLdrSp => exact storesAt_thumbLoad
  | thumbStrReg | thumbStrbReg | thumbStrhReg => exact storesAt_thumbStore
  | thumbStrImm | thumbStrbImm | thumbStrhImm => exact storesAt_thumbStoreImm
  | thumbStrSp => exact storesAt_thumbStoreSp
  | thumbPush r list =>
    exact storesAt_blockStore { cond := .al, wback := true, user := false, rn := 13
                                out := blockAddr true false (s.readReg 13) (thumbList list r 14) }
  | thumbStmia rb list =>
    exact storesAt_blockStore
      { cond := .al, wback := true, user := false, rn := lowReg rb
        out := blockAddr false true (s.readReg (lowReg rb)) (thumbList list false 0) }
  | thumbPop | thumbLdmia => exact storesAt_blockLoad

end Sys2Proof.Machine
end

section
/-! What a step does to the devices: stores, services, transfers, device cycles, keypad evaluations and changes of the
run state (70_reset_and_hazards.md R856). What each of them keeps, the step keeps. -/

open Sys2Proof

namespace Sys2Proof.Machine

/-- A property of the devices that everything a step does to them keeps. -/
structure KeptByStep (P : Devices → Prop) : Prop where
  noStores : ∀ d, P d → P { d with portStored := [] }
  write    : ∀ d w a v, P d → P (busWrite d w a v)
  service  : ∀ n ret s t, P s.dev → runService n ret s = .next t → P t.dev
  transfer : ∀ d n, P d → P (dmaTransfer d n).1
  cycle    : ∀ d, P d → P (tickPpu (tickTimers d))
  keypad   : ∀ d, P d → P (evalKeypad d)
  run      : ∀ d r, P d → P { d with run := r }

/-! ### Parts of a step that leave the devices alone -/

@[simp] theorem takeException_dev (s : State) (m : BitVec 5) (v l : Word) : (s.takeException m v l).dev = s.dev := by
  simp [State.takeException]

@[simp] theorem prefetch_dev (s : State) : s.prefetch.dev = s.dev := by
  unfold State.prefetch
  dsimp only
  split
  · split <;> rfl
  · rfl

@[simp] theorem pushSnapshot_dev (s : State) : s.pushSnapshot.dev = s.dev := by
  unfold State.pushSnapshot
  split <;> rfl

@[simp] theorem fetchInstr_dev (s : State) : (fetchInstr s).2.dev = { s.dev with portStored := [] } := by
  obtain ⟨w, k, -, hf⟩ := fetch_cases (beforeInstr s)
  unfold fetchInstr
  rw [hf]
  simp [beforeInstr, State.noStores]

@[simp] theorem priced_dev (s : State) : s.priced.dev = s.dev := by
  obtain ⟨n, k, hp⟩ := priced_eq s
  rw [hp]

@[simp] theorem pollInterrupts_dev (s : State) : (pollInterrupts s).dev = s.dev := by
  unfold pollInterrupts
  split <;> simp

@[simp] theorem hleEnter_dev (ret : Word) (s : State) : (hleEnter ret s).dev = s.dev := by simp [hleEnter]

namespace KeptByStep

variable {P : Devices → Prop} {s t : State}

theorem exec (h : KeptByStep P) {i : Instr} (ht : exec i s = .next t) (hs : P s.dev) : P t.dev := by
  have hswi {n : Nat} (hn : softwareInterrupt n s = .next t) : P t.dev := by
    unfold softwareInterrupt at hn
    split at hn
    · exact h.service _ _ _ t (by rwa [hleEnter_dev]) hn
    · exact (storesAt_trap (l := []) t hn).keeps h.write hs
  cases hi : isSwi i with
  | false => exact (exec_storesAt i s hi t ht).keeps h.write hs
  | true =>
    unfold Machine.exec at ht
    cases i with
    | armSwi c comment =>
      obtain ⟨-, rfl⟩ | ⟨-, hn⟩ := whenCond_eq_next ht
      · exact hs
      · exact hswi hn
    | thumbSwi value => exact hswi ht
    | _ => cases hi

theorem serveDma (h : KeptByStep P) {d : Devices} {r : Devices × Nat} (hr : serveDma d = .ok r) (hd : P d) : P r.1 :=
  serveDma_keeps h.transfer hd hr

theorem advanceDevices (h : KeptByStep P) {c : Nat} (ht : advanceDevices c s = .next t) (hs : P s.dev) : P t.dev := by
  obtain ⟨d, n, hd, rfl⟩ := advanceDevices_eq_next ht
  exact advanceLoop_keeps (fun d r hd hr => h.serveDma hr (h.cycle d hd)) hs hd

theorem pollAndCount (h : KeptByStep P) (ht : pollAndCount s = .next t) (hs : P s.dev) : P t.dev := by
  obtain ⟨u, hu, ht⟩ := andThen_eq_next ht
  cases ht
  show P u.dev
  unfold pollAndAdvance at hu
  split at hu
  · exact h.advanceDevices hu (by rwa [pollInterrupts_dev])
  · cases hu
    exact hs

theorem endRunning (h : KeptByStep P) (b : State) (hs : P s.dev) : P (endRunning b s).dev := by
  unfold Machine.endRunning
  dsimp only
  split
  · exact h.run _ _ hs
  · exact hs

theorem afterInstr (h : KeptByStep P) {b : State} (ht : afterInstr b s = .next t) (hs : P s.dev) : P t.dev := by
  obtain ⟨u, hu, ht⟩ := andThen_eq_next ht
  obtain ⟨d, n, hd, rfl⟩ := runImmediateDma_eq_next hu
  obtain ⟨v, hv, ht⟩ := andThen_eq_next ht
  obtain ⟨w, hw, ht⟩ := andThen_eq_next ht
  cases ht
  have hadvance : P v.dev := h.advanceDevices hv (h.serveDma hd hs)
  exact h.endRunning b (h.pollAndCount hw (h.keypad _ hadvance))

theorem runningStep (h : KeptByStep P) (ht : runningStep s = .next t) (hs : P s.dev) : P t.dev := by
  unfold Machine.runningStep at ht
  split at ht
  · cases ht
    exact h.run _ _ hs
  · obtain ⟨u, hu, ht⟩ := andThen_eq_next ht
    have hexec : P u.dev := h.exec hu (by rw [fetchInstr_dev]; exact h.noStores _ hs)
    exact h.afterInstr ht (by rwa [priced_dev])

theorem haltedStep (h : KeptByStep P) (ht : haltedStep s = .next t) (hs : P s.dev) : P t.dev := by
  obtain ⟨u, hu, ht⟩ := andThen_eq_next ht
  have hkeypad : P u.keypad.dev := h.keypad _ (h.advanceDevices hu hs)
  refine h.pollAndCount ht ?_
  split
  · exact h.run _ _ hkeypad
  · exact hkeypad

theorem stoppedStep (h : KeptByStep P) (ht : stoppedStep s = .next t) (hs : P s.dev) : P t.dev := by
  unfold Machine.stoppedStep at ht
  dsimp only at ht
  split at ht
  · exact h.pollAndCount ht (h.run _ _ hs)
  · cases ht
    exact hs

/-- What every part of a step keeps, a step keeps, by run state. -/
theorem step (h : KeptByStep P) (ht : step s = .next t) (hs : P s.dev) : P t.dev := by
  unfold Machine.step stepMachine at ht
  split at ht
  · exact h.runningStep ht hs
  · exact h.haltedStep ht hs
  · exact h.stoppedStep ht hs
  · cases ht
    exact hs

end KeptByStep

end Sys2Proof.Machine
end

section
/-! Memory in canonical form through transfers, device cycles, services and resets (20_memory.md R103 to R111). -/

open Sys2Proof

namespace Sys2Proof.Machine

/-! ### Operations on the devices that touch no byte of memory -/

@[simp] theorem raiseIrq_mem (d : Devices) (bit : Nat) : (raiseIrq d bit).mem = d.mem := rfl
@[simp] theorem setDma_mem (d : Devices) (n : Fin 4) (c : DmaChannel) : (setDma d n c).mem = d.mem := rfl
@[simp] theorem setTimer_mem (d : Devices) (n : Fin 4) (t : Timer) : (setTimer d n t).mem = d.mem := rfl
@[simp] theorem setDispstat_mem (d : Devices) (v : Half) : (setDispstat d v).mem = d.mem := rfl
@[simp] theorem renderLine_mem (d : Devices) : (renderLine d).mem = d.mem := rfl

@[simp] theorem raiseIfEnabled_mem (d : Devices) (enable irq : Nat) : (raiseIfEnabled d enable irq).mem = d.mem := by
  unfold raiseIfEnabled
  split <;> rfl

@[simp] theorem dmaFire_mem (d : Devices) (timing : Nat) (n : Fin 4) : (dmaFire d timing n).mem = d.mem := by
  unfold dmaFire
  split <;> rfl

@[simp] theorem dmaFireAll_mem (d : Devices) (timing : Nat) : (dmaFireAll d timing).mem = d.mem := by
  simp [dmaFireAll]

@[simp] theorem fifoFire_mem (d : Devices) (a : Word) (n : Fin 4) : (fifoFire d a n).mem = d.mem := by
  unfold fifoFire
  split <;> simp

@[simp] theorem fifoRequest_mem (d : Devices) (a : Word) : (fifoRequest d a).mem = d.mem := by simp [fifoRequest]

@[simp] theorem clockFifoA_mem (d : Devices) (n : Nat) : (clockFifoA d n).mem = d.mem := by
  unfold clockFifoA
  dsimp only
  split
  · split <;> simp
  · rfl

@[simp] theorem clockFifoB_mem (d : Devices) (n : Nat) : (clockFifoB d n).mem = d.mem := by
  unfold clockFifoB
  dsimp only
  split
  · split <;> simp
  · rfl

@[simp] theorem externalFifo_mem (d : Devices) (a : Word) : (externalFifo d a).mem = d.mem := by
  unfold externalFifo
  dsimp only
  split <;> simp

@[simp] theorem clockFifos_mem (d : Devices) (n : Nat) : (clockFifos d n).mem = d.mem := by
  unfold clockFifos
  split
  · split <;> simp
  · rfl

/-- An increment touches no memory if the one it cascades into does not. -/
theorem timerIncrement_mem {next : Devices → Devices} (hnext : ∀ d, (next d).mem = d.mem) (n : Fin 4)
    (d : Devices) : (timerIncrement n next d).mem = d.mem := by
  unfold timerIncrement
  dsimp only
  split
  · rw [clockFifos_mem, hnext]
    split <;> rfl
  · rfl

theorem cascadeInto_mem {inc : Devices → Devices} (hinc : ∀ d, (inc d).mem = d.mem) (n : Fin 4) (d : Devices) :
    (cascadeInto n inc d).mem = d.mem := by
  unfold cascadeInto
  split
  · exact hinc d
  · rfl

theorem timerTick_mem {inc : Devices → Devices} (hinc : ∀ d, (inc d).mem = d.mem) (n : Fin 4) (d : Devices) :
    (timerTick n inc d).mem = d.mem := by
  unfold timerTick
  dsimp only
  split
  · split
    · exact hinc _
    · rfl
  · rfl

@[simp] theorem tickTimers_mem (d : Devices) : (tickTimers d).mem = d.mem := by
  have h3 : ∀ d, (timerInc3 d).mem = d.mem := timerIncrement_mem (fun _ => rfl) 3
  have h2 : ∀ d, (timerInc2 d).mem = d.mem := timerIncrement_mem (cascadeInto_mem h3 3) 2
  have h1 : ∀ d, (timerInc1 d).mem = d.mem := timerIncrement_mem (cascadeInto_mem h2 2) 1
  have h0 : ∀ d, (timerInc0 d).mem = d.mem := timerIncrement_mem (cascadeInto_mem h1 1) 0
  rw [tickTimers, timerTick_mem h3, timerTick_mem h2, timerTick_mem h1, timerTick_mem h0]

@[simp] theorem enterHBlank_mem (d : Devices) : (enterHBlank d).mem = d.mem := by
  have hrender : (if d.ppu.line < 160 then renderLine d else d).mem = d.mem := by split <;> rfl
  unfold enterHBlank
  generalize (if d.ppu.line < 160 then renderLine d else d) = d1 at hrender
  dsimp only
  split <;> simpa using hrender

@[simp] theorem enterVBlank_mem (d : Devices) : (enterVBlank d).mem = d.mem := by simp [enterVBlank]

@[simp] theorem enterLine_mem (d : Devices) (l : Nat) : (enterLine d l).mem = d.mem := by
  unfold enterLine
  dsimp only
  (repeat' split) <;> simp

@[simp] theorem tickPpu_mem (d : Devices) : (tickPpu d).mem = d.mem := by
  unfold tickPpu
  dsimp only
  (repeat' split) <;> simp

@[simp] theorem dmaEnd_mem (r : DmaRun) (d : Devices) : (dmaEnd r d).mem = d.mem := by
  have hraise : (if r.cntH.getLsbD 14 then raiseIrq d (8 + r.chan.val) else d).mem = d.mem := by split <;> rfl
  unfold dmaEnd
  dsimp only
  split <;> exact hraise

@[simp] theorem clearRegisters_mem (flags : Word) (d : Devices) : (clearRegisters flags d).mem = d.mem := by
  unfold clearRegisters clearOtherIo
  dsimp only
  (repeat' split) <;> simp

/-! ### Transfers -/

theorem dmaUnit_wf {r : DmaRun} {q : Access} {d : Devices} (h : d.mem.wf = true) : (dmaUnit r q d).1.mem.wf = true := by
  unfold dmaUnit
  dsimp only
  rw [setDma_mem]
  refine busWrite_wf _ _ _ ?_
  split <;> exact h

/-- A transfer keeps the canonical form, unit by unit (62_dma.md R710). -/
theorem dmaTransfer_wf {d : Devices} {n : Fin 4} (h : d.mem.wf = true) : (dmaTransfer d n).1.mem.wf = true := by
  unfold dmaTransfer
  dsimp only
  rw [dmaEnd_mem]
  exact dmaLoop_keeps (P := fun e => e.mem.wf = true) _ (fun _ _ he => dmaUnit_wf he) _ _ _ _ h

/-! ### Services -/

variable {ret : Word} {s : State}

/-- A run of bus accesses and draws keeps the canonical form, whatever its length. -/
theorem BusRun.memoryOk {t : State} (h : BusRun s t) (hs : s.MemoryOk) : t.MemoryOk := by
  induction h with
  | refl => exact hs
  | charge _ n ih => exact ih
  | store _ w a x ih => exact busWrite_wf w a x ih
  | raise _ x ih => exact ih
  | draw _ ih => exact ih

/-- An outcome whose next state, if it has one, has its memory in canonical form. -/
def EndsMemoryOk (o : Result) : Prop := ∀ t, o = .next t → t.MemoryOk

theorem svcReturn_memoryOk (h : s.MemoryOk) : EndsMemoryOk (svcReturn ret s) :=
  fun _ ht => Host.Outcome.next.inj ht ▸ h

theorem svcStay_memoryOk (h : s.MemoryOk) : EndsMemoryOk (svcStay s) := fun _ ht => Host.Outcome.next.inj ht ▸ h

@[simp] theorem setReg_memoryOk (s : State) (i : Reg) (v : Word) : (s.setReg i v).MemoryOk ↔ s.MemoryOk := by
  rw [State.MemoryOk, State.setReg_dev, State.MemoryOk]

@[simp] theorem clearRegs_dev (n : Nat) (s : State) : (clearRegs n s).dev = s.dev := by
  induction n generalizing s with
  | zero => rfl
  | succ n ih => exact (ih _).trans (State.setReg_dev ..)

@[simp] theorem softResetRegs_dev (s : State) : (softResetRegs s).dev = s.dev := by simp [softResetRegs]

section
variable (hs : s.MemoryOk)
include hs

theorem svcSoftReset_memoryOk : EndsMemoryOk (svcSoftReset s) := by
  have hstart : BusRun s (Svc.start s).st := .refl
  refine svcReturn_memoryOk ?_
  unfold State.MemoryOk
  rw [State.setFlags_dev, softResetRegs_dev]
  exact ((hstart.read .byte 0x03007FFA).clearBytes _ _).memoryOk hs

theorem svcRegisterRamReset_memoryOk : EndsMemoryOk (svcRegisterRamReset ret s) := by
  have hrun : BusRun s ((Svc.start s).write .half 0x04000000 0x0080).st := BusRun.refl.write (v := Svc.start s) _ _ _
  refine svcReturn_memoryOk ?_
  unfold State.MemoryOk
  dsimp only
  rw [clearRegisters_mem]
  refine BusRun.memoryOk ?_ hs
  exact ((((hrun.clearArea _ _ _ _).clearArea _ _ _ _).clearArea _ _ _ _).clearArea _ _ _ _).clearArea _ _ _ _

theorem intrWaitFirst_memoryOk (discard : Bool) (mask : Half) :
    (intrWaitFirst discard mask (Svc.start s)).st.MemoryOk := by
  have hrun (u : Svc) (hu : u.st.MemoryOk) : (clearBiosIf mask u).st.MemoryOk :=
    (BusRun.refl.clearBiosIf mask).memoryOk hu
  unfold intrWaitFirst
  cases discard with
  | false => exact hs
  | true => exact hrun _ hs

theorem intrWait_memoryOk {discard : Bool} {mask : Half} : EndsMemoryOk (intrWait ret discard mask s) := by
  unfold intrWait
  dsimp only
  generalize hv : (if s.intrwaitMask = 0 then intrWaitFirst discard mask (Svc.start s) else Svc.start s) = v
  have hfirst : v.st.MemoryOk := by
    subst hv
    split
    · exact intrWaitFirst_memoryOk hs discard mask
    · exact hs
  have hread : BusRun v.st (v.read .half biosIf).2.st := BusRun.refl.read _ _
  split
  · exact svcStay_memoryOk (hread.memoryOk hfirst)
  · exact svcReturn_memoryOk ((hread.clearBiosIf _).memoryOk hfirst)

theorem divide_memoryOk {num den : Word} : EndsMemoryOk (divide ret num den s) := by
  unfold divide
  split
  · exact svcStay_memoryOk hs
  · exact svcReturn_memoryOk (by simpa using hs)

theorem cpuCopy_memoryOk {w : Width} {fill : Bool} {n : Nat} {src dst : Word} :
    EndsMemoryOk (cpuCopy w fill n src dst ret s) := by
  have hstart : BusRun s (Svc.start s).st := .refl
  unfold cpuCopy
  dsimp only
  split
  · exact svcReturn_memoryOk hs
  · split
    · exact svcReturn_memoryOk (((hstart.read _ _).fillUnits _ _ _ _).memoryOk hs)
    · exact svcReturn_memoryOk ((hstart.copyUnits _ _ _ _).memoryOk hs)

theorem decompress_memoryOk {body : Nat → Unzip → Unzip}
    (hbody : ∀ size u, BusRun s u.svc.st → BusRun s (body size u).svc.st) :
    EndsMemoryOk (decompress body ret s) := by
  have hstart : BusRun s (Svc.start s).st := .refl
  unfold decompress
  split
  · exact svcReturn_memoryOk hs
  · exact svcReturn_memoryOk ((hbody _ _ (hstart.read _ _)).memoryOk hs)

theorem svcBitUnPack_memoryOk : EndsMemoryOk (svcBitUnPack ret s) := by
  have hstart : BusRun s (Svc.start s).st := .refl
  unfold svcBitUnPack
  split
  · exact svcReturn_memoryOk hs
  · exact svcReturn_memoryOk
      ((BusRun.unpackLoop _ _ _ ((((hstart.read _ _).read _ _).read _ _).read _ _)).memoryOk hs)

theorem svcHuff_memoryOk : EndsMemoryOk (svcHuff ret s) := by
  have hstart : BusRun s (Svc.start s).st := .refl
  unfold svcHuff
  split
  · exact svcReturn_memoryOk hs
  · exact svcReturn_memoryOk ((BusRun.huffLoop _ _ _ _ ((hstart.read _ _).read _ _)).memoryOk hs)

theorem svcOpen_memoryOk : EndsMemoryOk (svcOpen ret s) := by
  have hrun := BusRun.openAccesses (v := Svc.start s) (Config.openAccesses s.freeCount) .refl
  obtain ⟨r, hr⟩ := writeOpenRegs_frame (Config.openRegs s.freeCount)
    ((Config.openAccesses s.freeCount).foldl Svc.openAccess (Svc.start s)).st
  unfold svcOpen
  dsimp only
  rw [hr]
  exact svcReturn_memoryOk (hrun.memoryOk hs)

theorem svcSound_memoryOk : EndsMemoryOk (svcSound ret s) := by
  unfold svcSound
  split
  · exact svcOpen_memoryOk hs
  · exact svcReturn_memoryOk hs

theorem setReg_return_memoryOk {i : Reg} {v : Word} : EndsMemoryOk (svcReturn ret (s.setReg i v)) :=
  svcReturn_memoryOk ((setReg_memoryOk s i v).mpr hs)

theorem svcMultiBoot_memoryOk : EndsMemoryOk (svcMultiBoot ret s) := by
  unfold svcMultiBoot
  split
  · exact svcOpen_memoryOk hs
  · exact setReg_return_memoryOk hs

/-- A boot keeps the images and writes MEM_INIT (70_reset_and_hazards.md R850). -/
theorem resetMachine_memoryOk : EndsMemoryOk (resetMachine s) := by
  have hreset : (resetMemory s.dev).wf = true := resetMemory_wf hs
  unfold resetMachine
  split
  · exact fun _ ht => Host.Outcome.next.inj ht ▸ hreset
  · exact fun _ ht => Host.Outcome.next.inj ht ▸ hreset
  · exact fun _ ht => nomatch ht

theorem svcHardReset_memoryOk : EndsMemoryOk (svcHardReset s) := by
  intro t ht
  obtain ⟨u, hu, ht⟩ := andThen_eq_next ht
  cases ht
  exact resetMachine_memoryOk hs u hu

/-- Every service keeps the canonical form; the cases are in the order of 47_swi_hle.md R521. -/
theorem runService_memoryOk {n : Nat} : EndsMemoryOk (runService n ret s) := by
  have hstart : BusRun s (Svc.start s).st := .refl
  unfold runService
  split
  any_goals exact svcSound_memoryOk hs
  · exact svcSoftReset_memoryOk hs
  · exact svcRegisterRamReset_memoryOk hs
  · exact svcReturn_memoryOk hs
  · exact svcReturn_memoryOk hs
  · exact intrWait_memoryOk hs
  · exact intrWait_memoryOk (by simpa using hs)
  · exact divide_memoryOk hs
  · exact divide_memoryOk hs
  · exact setReg_return_memoryOk hs
  · exact setReg_return_memoryOk hs
  · exact setReg_return_memoryOk hs
  · exact cpuCopy_memoryOk hs
  · exact cpuCopy_memoryOk hs
  · exact setReg_return_memoryOk hs
  · exact svcReturn_memoryOk ((hstart.bgAffineLoop _ _ _).memoryOk hs)
  · exact svcReturn_memoryOk ((hstart.objAffineLoop _ _ _ _).memoryOk hs)
  · exact svcBitUnPack_memoryOk hs
  · exact decompress_memoryOk hs fun _ _ h => h.lzLoop _ _ _ _ _
  · exact decompress_memoryOk hs fun _ _ h => h.lzLoop _ _ _ _ _
  · exact svcHuff_memoryOk hs
  · exact decompress_memoryOk hs fun _ _ h => h.rlLoop _ _ _
  · exact decompress_memoryOk hs fun _ _ h => h.rlLoop _ _ _
  · exact decompress_memoryOk hs fun _ _ h => h.diff8Loop _ _ _
  · exact decompress_memoryOk hs fun _ _ h => h.diff8Loop _ _ _
  · exact decompress_memoryOk hs fun _ _ h => h.diff16Loop _ _
  · exact svcReturn_memoryOk hs
  · exact setReg_return_memoryOk ((hstart.read _ _).memoryOk hs)
  · exact svcMultiBoot_memoryOk hs
  · exact svcHardReset_memoryOk hs
  · exact svcReturn_memoryOk ((hstart.write _ _ _).memoryOk hs)
  · exact svcReturn_memoryOk hs

end

/-- The canonical form is kept by everything a step does to the devices. -/
theorem canonical_keptByStep : KeptByStep fun d => d.mem.wf = true where
  noStores _ hd := hd
  write _ w a v hd := busWrite_wf w a v hd
  service _ _ _ t hs ht := runService_memoryOk hs t ht
  transfer _ _ hd := dmaTransfer_wf hd
  cycle d hd := by rwa [tickPpu_mem, tickTimers_mem]
  keypad d hd := by rwa [evalKeypad_mem]
  run _ _ hd := hd

end Sys2Proof.Machine

open Sys2Proof.Machine

/-- Settles O58: a step changes memory by bus writes and by the reset of a service alone, and these keep the canonical
form. -/
theorem stepKeepsMemoryCanonical : Obligations.StepKeepsMemoryCanonical :=
  fun _ _ hs ht => canonical_keptByStep.step ht hs
end

section
/-! The ranges of the regions (20_memory.md R104). -/

open Sys2Proof

namespace Sys2Proof.Machine

/-- The addresses of a region (R104). -/
def Region.spans (r : Region) (a : Nat) : Prop :=
  match r with
  | .bios => a < 0x4000
  | .unmapped => (0x4000 ≤ a ∧ a < 0x02000000) ∨ 0x10000000 ≤ a
  | .ewram => 0x02000000 ≤ a ∧ a < 0x03000000
  | .iwram => 0x03000000 ≤ a ∧ a < 0x04000000
  | .io => 0x04000000 ≤ a ∧ a < 0x05000000
  | .palette => 0x05000000 ≤ a ∧ a < 0x06000000
  | .vram => 0x06000000 ≤ a ∧ a < 0x07000000
  | .oam => 0x07000000 ≤ a ∧ a < 0x08000000
  | .rom n => 0x08000000 + n.val * 0x02000000 ≤ a ∧ a < 0x0A000000 + n.val * 0x02000000
  | .backup => 0x0E000000 ≤ a ∧ a < 0x10000000

theorem regionOf_spans (a : Nat) : (regionOf a).spans a := by
  unfold regionOf
  split
  case h_1 => split <;> simp only [Region.spans] <;> omega
  all_goals
    simp only [Region.spans, imp_false] at *
    omega

/-- No address lies in two regions: the ranges of every pair are apart. -/
theorem Region.spans_unique {r q : Region} {a : Nat} (hr : r.spans a) (hq : q.spans a) : r = q := by
  cases r <;> cases q
  all_goals simp only [Region.spans, reduceCtorEq, Region.rom.injEq] at * <;> omega

/-- A region is exactly its addresses. -/
theorem regionOf_eq_iff (r : Region) (a : Nat) : regionOf a = r ↔ r.spans a :=
  ⟨fun h => h ▸ regionOf_spans a, fun h => Region.spans_unique (regionOf_spans a) h⟩

end Sys2Proof.Machine

open Sys2Proof.Machine

/-- Settles O44, region by region. -/
theorem regionDecode : Obligations.RegionDecode := fun a _ =>
  ⟨regionOf_eq_iff .bios a, regionOf_eq_iff .ewram a, regionOf_eq_iff .iwram a, regionOf_eq_iff .io a,
    regionOf_eq_iff .palette a, regionOf_eq_iff .vram a, regionOf_eq_iff .oam a, regionOf_eq_iff (.rom 0) a,
    regionOf_eq_iff (.rom 1) a, regionOf_eq_iff (.rom 2) a, regionOf_eq_iff .backup a, regionOf_eq_iff .unmapped a⟩
end

section
/-! The cost of an access (20_memory.md R130, R131). -/

open Sys2Proof

namespace Sys2Proof.Machine

/-- An aligned access lies in the region of its address (R100). -/
theorem regionOf_alignTo (w : Width) (a : Nat) : regionOf (alignTo w a) = regionOf a := by
  refine regionOf_word ?_
  cases w <;> simp only [alignTo, Width.bytes] <;> omega

/-- The first-access wait states as a table of the field's two bits (R130). -/
theorem firstWait_eq_getD (f : Nat) : firstWait f = ([4, 3, 2, 8] : List Nat).getD (f % 4) 0 := by
  have hlt : f % 4 < 4 := Nat.mod_lt f (by decide)
  unfold firstWait
  generalize f % 4 = k at hlt
  interval_cases k <;> rfl

/-- The fields of the three windows stand three bits apart in WAITCNT (R130). -/
theorem romWaitN_eq_getD (c : Half) (n : Fin 3) :
    romWaitN c n = ([4, 3, 2, 8] : List Nat).getD (c.toNat / 2 ^ (2 + 3 * n.val) % 4) 0 := by
  rw [← firstWait_eq_getD]
  fin_cases n <;> rfl

theorem romWaitS_eq_getD (c : Half) (n : Fin 3) :
    romWaitS c n = if c.getLsbD (4 + 3 * n.val) then 1 else ([2, 4, 8] : List Nat).getD n.val 0 := by
  fin_cases n <;> rfl

/-- A ROM access is one access, and for a word a sequential one after it (R131). -/
theorem romCost_eq (c : Half) (n : Fin 3) (w : Width) (a : Nat) (q : Access) :
    romCost c n w a q =
      (1 + if q = .nonseq ∨ a % 0x20000 = 0 then romWaitN c n else romWaitS c n) +
        if decide (w = .word) then 1 + romWaitS c n else 0 := by
  by_cases h : q = .nonseq ∨ a % 0x20000 = 0 <;> cases w <;> simp [romCost, h]

end Sys2Proof.Machine

open Sys2Proof.Machine

/-- Settles O48: the cost is the table's entry for the region of the address. -/
theorem accessCosts : Obligations.AccessCosts := by
  intro d w a q
  dsimp only
  simp only [accessCost, regionOf_alignTo]
  refine ⟨?_, ?_, ?_, ?_, ?_⟩
  · rintro r rfl (h | h | h | h | h) <;> rw [h]
  · intro h
    rw [h]
    cases w <;> rfl
  · rintro (h | h) <;> rw [h] <;> cases w <;> rfl
  · intro h
    rw [h]
    simp only [firstWait_eq_getD, Nat.pow_zero, Nat.div_one]
  · intro n h
    rw [h]
    simp only [romCost_eq, romWaitN_eq_getD, romWaitS_eq_getD]
end

section
/-! Bytes of words, and the bytes that a read is made of (20_memory.md R100, R118). -/

open Sys2Proof

namespace Sys2Proof.Machine

@[simp] theorem byteOf_toNat (x : Word) (k : Nat) : (byteOf x k).toNat = x.toNat / 2 ^ (8 * k) % 256 :=
  BitVec.toNat_ofNat ..

theorem wordOfBytes_toNat (b3 b2 b1 b0 : Byte) :
    (wordOfBytes b3 b2 b1 b0).toNat = ((b3.toNat * 256 + b2.toNat) * 256 + b1.toNat) * 256 + b0.toNat := by
  simp only [wordOfBytes, BitVec.toNat_append]
  rw [← Nat.shiftLeft_add_eq_or_of_lt b2.isLt, ← Nat.shiftLeft_add_eq_or_of_lt b1.isLt,
    ← Nat.shiftLeft_add_eq_or_of_lt b0.isLt]
  simp only [Nat.shiftLeft_eq]

/-- A mask of the low bits takes the remainder. -/
theorem and_lowMask_toNat (x : Word) {n : Nat} (hn : n ≤ 32) :
    (x &&& BitVec.ofNat 32 (2 ^ n - 1)).toNat = x.toNat % 2 ^ n := by
  have hle : 2 ^ n ≤ 2 ^ 32 := Nat.pow_le_pow_right (by decide) hn
  rw [BitVec.toNat_and, BitVec.toNat_ofNat, Nat.mod_eq_of_lt (by omega), Nat.and_two_pow_sub_one_eq_mod]

/-- A shift by whole bytes moves the bytes down. -/
theorem byteOf_ushiftRight (x : Word) (j k : Nat) : byteOf (x >>> (8 * j)) k = byteOf x (j + k) := by
  unfold byteOf
  rw [BitVec.toNat_ushiftRight, Nat.shiftRight_eq_div_pow, Nat.div_div_eq_div_mul, ← Nat.pow_add, Nat.mul_add]

/-- Byte k of four bytes put together is the k-th of them. -/
theorem byteOf_wordOfBytes (b3 b2 b1 b0 : Byte) :
    byteOf (wordOfBytes b3 b2 b1 b0) 0 = b0 ∧ byteOf (wordOfBytes b3 b2 b1 b0) 1 = b1 ∧
      byteOf (wordOfBytes b3 b2 b1 b0) 2 = b2 ∧ byteOf (wordOfBytes b3 b2 b1 b0) 3 = b3 := by
  have h2 := b2.isLt
  have h1 := b1.isLt
  have h0 := b0.isLt
  refine ⟨?_, ?_, ?_, ?_⟩ <;> apply BitVec.eq_of_toNat_eq <;> rw [byteOf_toNat, wordOfBytes_toNat] <;> omega

/-- The low bytes of a word put together are its low bits. -/
theorem wordOfBytes_lowBytes (x : Word) :
    wordOfBytes 0 0 0 (byteOf x 0) = x &&& BitVec.ofNat 32 (2 ^ (8 * 1) - 1) ∧
      wordOfBytes 0 0 (byteOf x 1) (byteOf x 0) = x &&& BitVec.ofNat 32 (2 ^ (8 * 2) - 1) ∧
      wordOfBytes (byteOf x 3) (byteOf x 2) (byteOf x 1) (byteOf x 0) = x &&& BitVec.ofNat 32 (2 ^ (8 * 4) - 1) := by
  have hx := x.isLt
  refine ⟨?_, ?_, ?_⟩ <;> apply BitVec.eq_of_toNat_eq <;>
    rw [and_lowMask_toNat x (by decide), wordOfBytes_toNat] <;> simp only [byteOf_toNat] <;> simp <;> omega

/-- A halfword is its two bytes (R118). -/
theorem wordOfBytes_half (b1 b0 : Byte) :
    wordOfBytes 0 0 b1 b0 = wordOfBytes 0 0 0 b0 ||| wordOfBytes 0 0 0 b1 <<< 8 := by
  have h1 := b1.isLt
  apply BitVec.eq_of_toNat_eq
  rw [BitVec.toNat_or, BitVec.toNat_shiftLeft]
  simp only [wordOfBytes_toNat]
  rw [Nat.mod_eq_of_lt (by simp [Nat.shiftLeft_eq]; omega), Nat.or_comm,
    ← Nat.shiftLeft_add_eq_or_of_lt (by simpa using b0.isLt)]
  simp [Nat.shiftLeft_eq]

/-- A word is its two halfwords (R118). -/
theorem wordOfBytes_word (b3 b2 b1 b0 : Byte) :
    wordOfBytes b3 b2 b1 b0 = wordOfBytes 0 0 b1 b0 ||| wordOfBytes 0 0 b3 b2 <<< 16 := by
  have h3 := b3.isLt
  have h2 := b2.isLt
  have h1 := b1.isLt
  have h0 := b0.isLt
  apply BitVec.eq_of_toNat_eq
  rw [BitVec.toNat_or, BitVec.toNat_shiftLeft]
  simp only [wordOfBytes_toNat]
  rw [Nat.mod_eq_of_lt (by simp [Nat.shiftLeft_eq]; omega), Nat.or_comm,
    ← Nat.shiftLeft_add_eq_or_of_lt (by simp; omega)]
  simp [Nat.shiftLeft_eq]
  omega

/-! ### Reads -/

variable {d : Devices} {view : BusView} {w : Width} {a : Word}

/-- A read whose bytes are those of a word from byte j on gives these bytes, zero-extended. -/
theorem busRead_eq_lanes (x : Word) (j : Nat)
    (h : ∀ k < w.bytes, busByte d view a.toNat (alignTo w a.toNat + k) = byteOf x (j + k)) :
    busRead d view w a = (x >>> (8 * j)) &&& BitVec.ofNat 32 (2 ^ (8 * w.bytes) - 1) := by
  obtain ⟨hbyte, hhalf, hword⟩ := wordOfBytes_lowBytes (x >>> (8 * j))
  simp only [← byteOf_ushiftRight] at h
  cases w with
  | byte =>
    refine Eq.trans ?_ hbyte
    rw [← h 0 (by decide)]
    rfl
  | half =>
    refine Eq.trans ?_ hhalf
    rw [← h 0 (by decide), ← h 1 (by decide)]
    rfl
  | word =>
    refine Eq.trans ?_ hword
    rw [← h 0 (by decide), ← h 1 (by decide), ← h 2 (by decide), ← h 3 (by decide)]
    rfl

/-- Byte k of a read is the byte k places above the aligned address. -/
theorem byteOf_busRead {k : Nat} (hk : k < w.bytes) :
    byteOf (busRead d view w a) k = busByte d view a.toNat (alignTo w a.toNat + k) := by
  have hbytes := byteOf_wordOfBytes
  cases w with
  | byte =>
    obtain rfl : k = 0 := by simp only [Width.bytes] at hk; omega
    exact (hbytes _ _ _ _).1
  | half =>
    obtain rfl | rfl : k = 0 ∨ k = 1 := by simp only [Width.bytes] at hk; omega
    · exact (hbytes _ _ _ _).1
    · exact (hbytes _ _ _ _).2.1
  | word =>
    obtain rfl | rfl | rfl | rfl : k = 0 ∨ k = 1 ∨ k = 2 ∨ k = 3 := by simp only [Width.bytes] at hk; omega
    · exact (hbytes _ _ _ _).1
    · exact (hbytes _ _ _ _).2.1
    · exact (hbytes _ _ _ _).2.2.1
    · exact (hbytes _ _ _ _).2.2.2

/-- The bytes of an aligned access lie in one word. -/
theorem alignTo_add_div (w : Width) (a : Nat) {k : Nat} (hk : k < w.bytes) : (alignTo w a + k) / 4 = a / 4 := by
  cases w <;> simp only [alignTo, Width.bytes] at * <;> omega

/-- The bytes of an aligned access lie in the region of its address. -/
theorem regionOf_alignTo_add (w : Width) (a : Nat) {k : Nat} (hk : k < w.bytes) :
    regionOf (alignTo w a + k) = regionOf a := regionOf_word (alignTo_add_div w a hk)

end Sys2Proof.Machine
end

section
/-! Open bus and BIOS protection (20_memory.md R112, R114, R117). -/

open Sys2Proof

namespace Sys2Proof.Machine

variable {d : Devices} {view : BusView} {w : Width} {a : Word}

/-- A read whose bytes come from a latch gives the latch's lanes of the aligned address (R112). -/
theorem busRead_latch (latch : Word)
    (h : ∀ b, regionOf b = regionOf a.toNat → busByte d view a.toNat b = latchByte latch b) :
    busRead d view w a =
      (latch >>> (8 * (a.toNat % 4 / w.bytes * w.bytes))) &&& BitVec.ofNat 32 (2 ^ (8 * w.bytes) - 1) := by
  refine busRead_eq_lanes latch _ fun k hk => ?_
  rw [h _ (regionOf_alignTo_add w a.toNat hk), latchByte]
  congr 1
  cases w <;> simp only [alignTo, Width.bytes] at * <;> omega

theorem busByte_unmapped {raw b : Nat} (h : regionOf b = .unmapped) :
    busByte d view raw b = latchByte view.openLatch b := by simp only [busByte, h]

theorem busByte_bios_latch {raw b : Nat} {l : Word} (h : regionOf b = .bios) (hl : view.biosLatch = some l) :
    busByte d view raw b = latchByte l b := by simp only [busByte, h, hl]

theorem busByte_bios_image {raw b : Nat} (h : regionOf b = .bios) (hl : view.biosLatch = none) :
    busByte d view raw b = cellRead d.mem b := by simp only [busByte, h, hl]

end Sys2Proof.Machine

open Sys2Proof.Machine

/-- Settles O47: each byte of the read is a latch's, or the image's. -/
theorem openBusAndBiosProtection : Obligations.OpenBusAndBiosProtection := by
  intro s w a
  have hregion (h : a.toNat < 0x4000) : regionOf a.toNat = .bios := (regionOf_eq_iff .bios _).mpr h
  refine ⟨fun h => ?_, fun ha hpc => ?_, fun ha hpc k hk => ?_⟩
  · exact busRead_latch s.prefetchLatch fun b hb => busByte_unmapped (hb.trans h)
  · have hlatch : s.dataView.biosLatch = some s.biosLatch := if_neg (Nat.not_lt.mpr hpc)
    exact busRead_latch s.biosLatch fun b hb => busByte_bios_latch (hb.trans (hregion ha)) hlatch
  · have himage : s.dataView.biosLatch = none := if_pos hpc
    rw [State.load, byteOf_busRead hk]
    exact busByte_bios_image ((regionOf_alignTo_add w _ hk).trans (hregion ha)) himage
end

section
/-! Narrow and ignored writes (20_memory.md R105, R109 to R111, R115, R117). -/

open Sys2Proof

namespace Sys2Proof.Machine

/-- A doubled byte is the byte in both places (R109). -/
theorem doubledByte_eq (v : Word) : doubledByte v = BitVec.ofNat 32 (v.toNat % 256 * 257) := by
  apply BitVec.eq_of_toNat_eq
  rw [doubledByte, wordOfBytes_toNat, BitVec.toNat_ofNat]
  simp only [byteOf_toNat]
  simp
  omega

/-- The VRAM offset, by the low 17 bits of the address (R110). -/
theorem vramOffset_eq (a : Word) :
    vramOffset a.toNat =
      if 0x18000 ≤ (a &&& 0x1FFFF).toNat then (a &&& 0x1FFFF).toNat - 0x8000 else (a &&& 0x1FFFF).toNat := by
  have h : (a &&& 0x1FFFF).toNat = a.toNat % 0x20000 := and_lowMask_toNat a (n := 17) (by decide)
  rw [h]
  rfl

/-- The OBJ boundary, by BG mode (R110; for modes 6 and 7 the model's reading, log entry 34). -/
theorem objBoundary_eq (d : Devices) :
    objBoundary d =
      if d.ppu.dispcnt &&& 7 = 3 ∨ d.ppu.dispcnt &&& 7 = 4 ∨ d.ppu.dispcnt &&& 7 = 5 then 0x14000 else 0x10000 := by
  have h : (d.ppu.dispcnt &&& 7).toNat = d.ppu.dispcnt.toNat % 8 := by
    rw [BitVec.toNat_and]
    exact Nat.and_two_pow_sub_one_eq_mod _ 3
  unfold objBoundary
  rw [← h]
  congr 1
  simp only [← BitVec.toNat_inj]
  apply propext
  simp
  omega

variable {d : Devices} {a v : Word}

theorem busWrite_palette_byte (h : regionOf a.toNat = .palette) :
    busWrite d .byte a v = busWrite d .half a (doubledByte v) := by
  have hkey : alignTo .byte a.toNat % 0x400 / 2 * 2 = alignTo .half a.toNat % 0x400 := by
    simp only [alignTo, Width.bytes]
    omega
  simp only [busWrite, regionOf_alignTo, h, hkey]

theorem busWrite_vram_byte (h : regionOf a.toNat = .vram) :
    busWrite d .byte a v = if objBoundary d ≤ vramOffset a.toNat then d else busWrite d .half a (doubledByte v) := by
  have hbyte : alignTo .byte a.toNat = a.toNat := by simp [alignTo, Width.bytes]
  simp only [busWrite, regionOf_alignTo, h, vramByteIgnored, hbyte, decide_eq_true_eq]
  rfl

end Sys2Proof.Machine

open Sys2Proof.Machine

/-- Settles O46, region by region. -/
theorem narrowAndIgnoredWrites : Obligations.NarrowAndIgnoredWrites := by
  intro d w a v
  dsimp only
  rw [← vramOffset_eq, ← objBoundary_eq, ← doubledByte_eq]
  refine ⟨?_, fun n h hwindow => ?_, fun h => ?_, busWrite_palette_byte, fun h hle => ?_, fun h hlt => ?_⟩
  · rintro (h | h) <;> simp only [busWrite, regionOf_alignTo, h]
  · simp [busWrite, regionOf_alignTo, h, hwindow]
  · simp only [busWrite, regionOf_alignTo, h]
  · rw [busWrite_vram_byte h, if_pos hle]
  · rw [busWrite_vram_byte h, if_neg (Nat.not_le.mpr hlt)]
end

section
/-! Stores to RAM and the reads after them, mirrors among them (20_memory.md R101, R106, R107, R109 to R111, R118). -/

open Sys2Proof

namespace Sys2Proof.Machine

/-! ### Cells -/

/-- After a write of a byte it reads back, and every other byte reads as before. -/
theorem cellRead_cellWrite {m : Memory} (h : m.wf = true) (a : Nat) (b : Byte) (x : Nat) :
    cellRead (cellWrite m a b) x = if x = a then b else cellRead m x := by
  split
  · next hx => rw [hx, cellRead_cellWrite_same a b h]
  · next hx => rw [cellRead_cellWrite_other m b hx]

/-- After a write of consecutive cells, each of them reads as its byte of the value, and every other as before. -/
theorem cellRead_writeCells {d : Devices} (h : d.mem.wf = true) (w : Width) (key : Nat) (v : Word) (x : Nat) :
    cellRead (writeCells d w key v).mem x =
      if key ≤ x ∧ x < key + w.bytes then byteOf v (x - key) else cellRead d.mem x := by
  have h0 : (cellWrite d.mem key (byteOf v 0)).wf = true := cellWrite_wf _ _ h
  have h1 := cellWrite_wf (key + 1) (byteOf v 1) h0
  have h2 := cellWrite_wf (key + 2) (byteOf v 2) h1
  by_cases hin : key ≤ x ∧ x < key + w.bytes
  · obtain ⟨k, rfl⟩ := Nat.exists_eq_add_of_le hin.1
    rw [if_pos hin, Nat.add_sub_cancel_left]
    have hk : k < w.bytes := by omega
    cases w <;> simp only [Width.bytes] at hk <;> interval_cases k <;>
      simp [writeCells, writeCell, cellRead_cellWrite, h, h0, h1, h2]
  · rw [if_neg hin]
    refine writeCells_other d w key v fun hx => hin ?_
    obtain ⟨k, hk, rfl⟩ := List.mem_map.mp hx
    have hk := List.mem_range.mp hk
    omega

/-! ### Canonical addresses -/

/-- VRAM offsets fold at multiples of a word, so that an aligned access stays together (R110). -/
theorem vramOffset_alignTo_add (w : Width) (a : Nat) {k : Nat} (hk : k < w.bytes) :
    vramOffset (alignTo w a + k) = vramOffset a / w.bytes * w.bytes + k := by
  cases w <;> simp only [alignTo, Width.bytes] at hk ⊢ <;>
    · unfold vramOffset
      dsimp only
      split <;> split <;> omega

/-- The bytes of an aligned access have the canonical addresses of an aligned access. -/
theorem ramKey_alignTo_add {a key k : Nat} {w : Width} (h : ramKey a = some key) (hk : k < w.bytes) :
    ramKey (alignTo w a + k) = some (key / w.bytes * w.bytes + k) := by
  have hregion := regionOf_alignTo_add w a hk
  cases hr : regionOf a with
  | ewram | iwram | palette | oam =>
    simp only [ramKey, hregion, hr, Option.some.injEq] at h ⊢
    subst h
    cases w <;> simp only [alignTo, Width.bytes] at hk ⊢ <;> omega
  | vram =>
    simp only [ramKey, hregion, hr, Option.some.injEq, vramKey, vramOffset_alignTo_add w a hk] at h ⊢
    subst h
    cases w <;> simp only [Width.bytes] <;> omega
  | bios | unmapped | io | rom | backup => simp [ramKey, hr] at h

/-- A byte of RAM is read at its canonical address. -/
theorem busByte_ramKey {d : Devices} {view : BusView} {raw b key : Nat} (h : ramKey b = some key) :
    busByte d view raw b = cellRead d.mem key := by
  cases hr : regionOf b with
  | ewram | iwram | palette | vram | oam =>
    simp only [ramKey, hr, Option.some.injEq] at h
    simp only [busByte, hr, h]
  | bios | unmapped | io | rom | backup => simp [ramKey, hr] at h

/-- A store to RAM that is not a narrow one writes the cells of the aligned access. -/
theorem busWrite_ramKey {d : Devices} {w : Width} {a v : Word} {key : Nat} (h : ramKey a.toNat = some key)
    (hw : w = .byte → regionOf a.toNat = .ewram ∨ regionOf a.toNat = .iwram) :
    busWrite d w a v = writeCells d w (key / w.bytes * w.bytes) v := by
  have hpos : 0 < w.bytes := by cases w <;> decide
  have hkey : ramKey (alignTo w a.toNat) = some (key / w.bytes * w.bytes) := ramKey_alignTo_add h hpos
  cases hr : regionOf a.toNat with
  | ewram | iwram =>
    simp only [ramKey, regionOf_alignTo, hr, Option.some.injEq] at hkey
    simp only [busWrite, regionOf_alignTo, hr, hkey]
  | palette | vram | oam =>
    simp only [ramKey, regionOf_alignTo, hr, Option.some.injEq] at hkey
    cases w with
    | byte => simp [hr] at hw
    | half | word => simp only [busWrite, regionOf_alignTo, hr, hkey]
  | bios | unmapped | io | rom | backup => simp [ramKey, hr] at h

/-- After a store to RAM, a byte whose cell is in the aligned access reads as its byte of the value, and every other as
before. -/
theorem busByte_store {d : Devices} {view : BusView} {w : Width} {a v : Word} {raw c ka kc : Nat}
    (hwf : d.mem.wf = true) (ha : ramKey a.toNat = some ka) (hc : ramKey c = some kc)
    (hw : w = .byte → regionOf a.toNat = .ewram ∨ regionOf a.toNat = .iwram) :
    busByte (busWrite d w a v) view raw c =
      if kc / w.bytes = ka / w.bytes then byteOf v (kc % w.bytes) else busByte d view raw c := by
  have hin : (ka / w.bytes * w.bytes ≤ kc ∧ kc < ka / w.bytes * w.bytes + w.bytes) =
      (kc / w.bytes = ka / w.bytes) := by
    cases w <;> simp only [Width.bytes, eq_iff_iff] <;> omega
  rw [busByte_ramKey hc, busByte_ramKey hc, busWrite_ramKey ha hw, cellRead_writeCells hwf]
  simp only [hin]
  split
  · congr 1
    cases w <;> simp only [Width.bytes] at * <;> omega
  · rfl

section
variable {d : Devices} {view : BusView} {w : Width} {a v c : Word} {ka kc : Nat} (hwf : d.mem.wf = true)
  (ha : ramKey a.toNat = some ka) (hc : ramKey c.toNat = some kc)
  (hw : w = .byte → regionOf a.toNat = .ewram ∨ regionOf a.toNat = .iwram)
include hwf ha hc hw

/-- A stored value reads back in its width through every address whose aligned access has the same cells. -/
theorem busRead_store_same (h : kc / w.bytes = ka / w.bytes) :
    busRead (busWrite d w a v) view w c = v &&& BitVec.ofNat 32 (2 ^ (8 * w.bytes) - 1) := by
  refine (busRead_eq_lanes v 0 fun k hk => ?_).trans (by simp)
  have hdiv : (kc / w.bytes * w.bytes + k) / w.bytes = kc / w.bytes := by
    cases w <;> simp only [Width.bytes] at hk ⊢ <;> omega
  have hmod : (kc / w.bytes * w.bytes + k) % w.bytes = 0 + k := by
    cases w <;> simp only [Width.bytes] at hk ⊢ <;> omega
  rw [busByte_store hwf ha (ramKey_alignTo_add hc hk) hw, if_pos (hdiv.trans h), hmod]

/-- A byte read after a store gives its byte of the value, or what it gave before. -/
theorem busRead_byte_store :
    busRead (busWrite d w a v) view .byte c =
      if kc / w.bytes = ka / w.bytes then (v >>> (8 * (kc % w.bytes))) &&& 0xFF else busRead d view .byte c := by
  have halign : alignTo .byte c.toNat = c.toNat := by simp [alignTo, Width.bytes]
  have hstore := busByte_store (view := view) (v := v) (raw := c.toNat) hwf ha hc hw
  split
  · next h =>
    rw [if_pos h] at hstore
    refine busRead_eq_lanes v _ fun k hk => ?_
    obtain rfl : k = 0 := by simp only [Width.bytes] at hk; omega
    rwa [halign]
  · next h =>
    rw [if_neg h] at hstore
    simp only [busRead, halign, hstore]

end

/-! ### Halfwords and words as their bytes -/

/-- Only the backup window is read at the unaligned address (R116): elsewhere no byte depends on it. -/
theorem busByte_raw {d : Devices} {view : BusView} {b c : Nat} (raw raw' : Nat) (h : regionOf c ≠ .backup)
    (hb : b / 4 = c / 4) : busByte d view raw b = busByte d view raw' b := by
  rw [← regionOf_word hb] at h
  unfold busByte
  split
  case h_10 hbackup => exact absurd hbackup h
  all_goals rfl

/-- The masks of an aligned address (10_state.md R35). -/
theorem and_alignMask_toNat (x : Word) :
    (x &&& 0xFFFFFFFE).toNat = x.toNat / 2 * 2 ∧ (x &&& 0xFFFFFFFC).toNat = x.toNat / 4 * 4 := by
  have hx := x.isLt
  have hdiv2 : (x &&& 0xFFFFFFFE).toNat / 2 ^ 1 = x.toNat / 2 ^ 1 % 2 ^ 31 := by
    rw [BitVec.toNat_and, Nat.and_div_two_pow]
    exact Nat.and_two_pow_sub_one_eq_mod _ 31
  have hdiv4 : (x &&& 0xFFFFFFFC).toNat / 2 ^ 2 = x.toNat / 2 ^ 2 % 2 ^ 30 := by
    rw [BitVec.toNat_and, Nat.and_div_two_pow]
    exact Nat.and_two_pow_sub_one_eq_mod _ 30
  have hmod2 : (x &&& 0xFFFFFFFE).toNat % 2 = 0 := alignPc_aligned true x
  have hmod4 : (x &&& 0xFFFFFFFC).toNat % 4 = 0 := alignPc_aligned false x
  omega

section
variable {d : Devices} {view : BusView} {c : Word}

/-- A halfword reads as its two bytes (R118). -/
theorem busRead_half_eq (h : regionOf c.toNat ≠ .backup) :
    busRead d view .half c =
      (busRead d view .byte (c &&& 0xFFFFFFFE) ||| busRead d view .byte ((c &&& 0xFFFFFFFE) + 1) <<< 8) := by
  have hlow := (and_alignMask_toNat c).1
  have hhigh : ((c &&& 0xFFFFFFFE) + 1).toNat = c.toNat / 2 * 2 + 1 := by
    rw [BitVec.toNat_add, hlow]
    simp
    omega
  simp only [busRead, alignTo, Width.bytes, hlow, hhigh, Nat.div_one, Nat.mul_one]
  rw [wordOfBytes_half, busByte_raw c.toNat (c.toNat / 2 * 2) h (by omega),
    busByte_raw c.toNat (c.toNat / 2 * 2 + 1) h (by omega)]

/-- A word reads as its two halfwords (R118). -/
theorem busRead_word_eq (h : regionOf c.toNat ≠ .backup) :
    busRead d view .word c =
      (busRead d view .half (c &&& 0xFFFFFFFC) ||| busRead d view .half ((c &&& 0xFFFFFFFC) + 2) <<< 16) := by
  have hlow := (and_alignMask_toNat c).2
  have hhigh : ((c &&& 0xFFFFFFFC) + 2).toNat = c.toNat / 4 * 4 + 2 := by
    rw [BitVec.toNat_add, hlow]
    simp
    omega
  have hbase : c.toNat / 4 * 4 / 2 * 2 = c.toNat / 4 * 4 := by omega
  have hnext : (c.toNat / 4 * 4 + 2) / 2 * 2 = c.toNat / 4 * 4 + 2 := by omega
  simp only [busRead, alignTo, Width.bytes, hlow, hhigh, hbase, hnext]
  have hraw (raw k : Nat) (hk : k < 4) :
      busByte d view c.toNat (c.toNat / 4 * 4 + k) = busByte d view raw (c.toNat / 4 * 4 + k) :=
    busByte_raw _ _ h (by omega)
  rw [wordOfBytes_word, hraw (c.toNat / 4 * 4) 1 (by decide), hraw (c.toNat / 4 * 4 + 2) 2 (by decide),
    hraw (c.toNat / 4 * 4 + 2) 3 (by decide), busByte_raw c.toNat (c.toNat / 4 * 4) h (b := c.toNat / 4 * 4) (by omega)]

end

/-! ### The obligation's places -/

/-- The byte of a region's memory that an address names: R106, R107, R109 to R111. -/
def ramPlace (r : Region) (a : Nat) : Nat :=
  if r = .ewram then a % 0x40000 else if r = .iwram then a % 0x8000 else if r = .vram then vramOffset a else a % 0x400

/-- The canonical addresses of a region of RAM are its places from an aligned base up. -/
theorem ramKey_eq_place {r : Region} (h : r = .ewram ∨ r = .iwram ∨ r = .palette ∨ r = .vram ∨ r = .oam) :
    ∃ base, base % 4 = 0 ∧ ∀ a, regionOf a = r → ramKey a = some (base + ramPlace r a) := by
  obtain rfl | rfl | rfl | rfl | rfl := h
  · exact ⟨0x02000000, rfl, fun _ => ramKey_ewram⟩
  · exact ⟨0x03000000, rfl, fun _ => ramKey_iwram⟩
  · exact ⟨0x05000000, rfl, fun _ => ramKey_palette⟩
  · exact ⟨0x06000000, rfl, fun _ => ramKey_vram⟩
  · exact ⟨0x07000000, rfl, fun _ => ramKey_oam⟩

end Sys2Proof.Machine

open Sys2Proof.Machine

/-- Settles O45: a store writes the cells of the aligned access, and every mirror reads the same cells. -/
theorem ramStoresReadBack : Obligations.RamStoresReadBack := by
  intro d view w a v hwf
  dsimp only
  intro hram c hc
  have hr : regionOf a.toNat = .ewram ∨ regionOf a.toNat = .iwram ∨ regionOf a.toNat = .palette ∨
      regionOf a.toNat = .vram ∨ regionOf a.toNat = .oam := by tauto
  have hnarrow : w = .byte → regionOf a.toNat = .ewram ∨ regionOf a.toNat = .iwram := by tauto
  have hbackup : regionOf c.toNat ≠ .backup := by rw [hc]; rintro h; simp [h] at hr
  obtain ⟨base, hbase, hkey⟩ := ramKey_eq_place hr
  have ha := hkey a.toNat rfl
  have hcell (p q : Nat) : (p / w.bytes = q / w.bytes) = ((base + p) / w.bytes = (base + q) / w.bytes) := by
    cases w <;> simp only [Width.bytes, eq_iff_iff] <;> omega
  have hlane (p : Nat) : p % w.bytes = (base + p) % w.bytes := by
    cases w <;> simp only [Width.bytes] <;> omega
  refine ⟨fun h => ?_, ?_, busRead_half_eq hbackup, busRead_word_eq hbackup⟩
  · exact busRead_store_same hwf ha (hkey _ hc) hnarrow ((hcell _ _).mp h)
  · refine (busRead_byte_store hwf ha (hkey _ hc) hnarrow).trans ?_
    simp only [← hcell, ← hlane]
    rfl
end
section
/-! Words as lists of fields (30_encoding.md R201, R209): what the decoder's reading functions find in a word whose
fields are known. -/

namespace Sys2Proof

/-- A field of an encoding: its width in bits and its value. -/
structure BitField where
  width : Nat
  value : Nat
  value_lt : value < 2 ^ width

namespace BitField

/-- Fixed bits. -/
abbrev const (n v : Nat) (h : v < 2 ^ n := by decide) : BitField := ⟨n, v, h⟩
/-- One bit. -/
abbrev bit (b : Bool) : BitField := ⟨1, b.toNat, b.toNat_lt⟩
/-- A register. -/
abbrev reg (r : Reg) : BitField := ⟨4, r.val, r.isLt⟩
/-- A Thumb low register. -/
abbrev low (r : LowReg) : BitField := ⟨3, r.val, r.isLt⟩
/-- A condition. -/
abbrev cond (c : Cond) : BitField := ⟨4, c.number, Laws.cond_number_lt c⟩
/-- A shift type. -/
abbrev shift (sh : ShiftType) : BitField := ⟨2, sh.number, Laws.shift_number_lt sh⟩
/-- The bits of an immediate, a register list or an undefined encoding. -/
abbrev bits {n : Nat} (v : BitVec n) : BitField := ⟨n, v.toNat, v.isLt⟩

end BitField

open BitField

/-- The word whose fields, from bit 0 up, are those of a list. -/
def pack : List BitField → Nat
  | [] => 0
  | f :: fs => f.value + 2 ^ f.width * pack fs

section
variable (f : BitField) (fs : List BitField) {lo n : Nat}

/-! ### Fields beyond the first -/

@[simp] theorem fieldsFrom_pack_cons (h : f.width ≤ lo) :
    fieldsFrom (pack (f :: fs)) lo = fieldsFrom (pack fs) (lo - f.width) := by
  obtain ⟨k, rfl⟩ := Nat.exists_eq_add_of_le h
  rw [fieldsFrom, pack, pow_add, ← Nat.div_div_eq_div_mul, Nat.add_mul_div_left _ _ (by positivity),
    Nat.div_eq_of_lt f.value_lt, Nat.zero_add, Nat.add_sub_cancel_left, fieldsFrom]

theorem field_eq_fieldsFrom_mod (w lo n : Nat) : field w lo n = fieldsFrom w lo % 2 ^ n := rfl

@[simp] theorem field_pack_cons (h : f.width ≤ lo) :
    field (pack (f :: fs)) lo n = field (pack fs) (lo - f.width) n := by
  simp only [field_eq_fieldsFrom_mod, fieldsFrom_pack_cons f fs h]

@[simp] theorem bitAt_pack_cons (h : f.width ≤ lo) : bitAt (pack (f :: fs)) lo = bitAt (pack fs) (lo - f.width) := by
  simp only [bitAt, field_pack_cons f fs h]

@[simp] theorem condAt_pack_cons (h : f.width ≤ lo) :
    condAt (pack (f :: fs)) lo = condAt (pack fs) (lo - f.width) := by
  simp only [condAt, field_pack_cons f fs h]

@[simp] theorem regAt_pack_cons (h : f.width ≤ lo) : regAt (pack (f :: fs)) lo = regAt (pack fs) (lo - f.width) := by
  simp only [regAt, fieldsFrom_pack_cons f fs h]

@[simp] theorem lowAt_pack_cons (h : f.width ≤ lo) : lowAt (pack (f :: fs)) lo = lowAt (pack fs) (lo - f.width) := by
  simp only [lowAt, fieldsFrom_pack_cons f fs h]

/-! ### The first field -/

/-- Bits inside the first field. -/
@[simp] theorem field_pack_inside (h : lo + n ≤ f.width) :
    field (pack (f :: fs)) lo n = f.value / 2 ^ lo % 2 ^ n := by
  obtain ⟨k, hk⟩ := Nat.exists_eq_add_of_le h
  rw [field, pack, hk, pow_add, pow_add, mul_assoc, mul_assoc, Nat.add_mul_div_left _ _ (by positivity),
    Nat.add_mul_mod_self_left]

/-- Bits that begin in the first field and go on beyond it. -/
@[simp] theorem field_pack_across {t : Nat} (hlo : lo < f.width) (h : f.width < lo + n) :
    field (pack (f :: fs)) lo n = t ↔
      f.value / 2 ^ lo = t % 2 ^ (f.width - lo) ∧ field (pack fs) 0 (n - (f.width - lo)) = t / 2 ^ (f.width - lo) := by
  obtain ⟨k, hk⟩ := Nat.exists_eq_add_of_le hlo.le
  obtain ⟨j, rfl⟩ : ∃ j, n = k + j := Nat.exists_eq_add_of_le (by omega)
  have hv : f.value / 2 ^ lo < 2 ^ k := Nat.div_lt_of_lt_mul (by rw [← pow_add, ← hk]; exact f.value_lt)
  rw [field, field, pack, hk, pow_add, mul_assoc, Nat.add_mul_div_left _ _ (by positivity), Nat.add_sub_cancel_left,
    Nat.add_sub_cancel_left, pow_zero, Nat.div_one, pow_add, Nat.mod_mul, Nat.add_mul_mod_self_left,
    Nat.mod_eq_of_lt hv, Nat.add_mul_div_left _ _ (by positivity), Nat.div_eq_of_lt hv, Nat.zero_add]
  constructor
  · rintro rfl
    rw [Nat.add_mul_mod_self_left, Nat.mod_eq_of_lt hv, Nat.add_mul_div_left _ _ (by positivity), Nat.div_eq_of_lt hv,
      Nat.zero_add]
    exact ⟨rfl, rfl⟩
  · rintro ⟨hm, hd⟩
    rw [hm, hd, Nat.mod_add_div]

theorem field_pack_head (h : f.width = n) : field (pack (f :: fs)) 0 n = f.value := by
  rw [field_pack_inside f fs (by omega), pow_zero, Nat.div_one, ← h, Nat.mod_eq_of_lt f.value_lt]

@[simp] theorem bitAt_pack_bit (b : Bool) : bitAt (pack (bit b :: fs)) 0 = b := by
  rw [bitAt, field_pack_head _ fs rfl]
  cases b <;> rfl

@[simp] theorem condAt_pack_cond (c : Cond) : condAt (pack (cond c :: fs)) 0 = c := by
  rw [condAt, field_pack_head _ fs rfl]
  cases c <;> rfl

@[simp] theorem regAt_pack_reg (r : Reg) : regAt (pack (reg r :: fs)) 0 = r := by
  rw [← Fin.val_inj]
  exact field_pack_head (reg r) fs rfl

@[simp] theorem lowAt_pack_low (r : LowReg) : lowAt (pack (low r :: fs)) 0 = r := by
  rw [← Fin.val_inj]
  exact field_pack_head (low r) fs rfl

@[simp] theorem ofNat_fieldsFrom_pack_bits (v : BitVec n) :
    BitVec.ofNat n (fieldsFrom (pack (bits v :: fs)) 0) = v := by
  apply BitVec.eq_of_toNat_eq
  rw [BitVec.toNat_ofNat]
  exact field_pack_head (bits v) fs rfl

@[simp] theorem shiftAt_pack_shift (g : BitField) (sh : ShiftType) (h : f.width + g.width = 5) :
    shiftAt (pack (f :: g :: shift sh :: fs)) = sh := by
  rw [shiftAt, field_pack_cons _ _ (by omega), field_pack_cons _ _ (by omega), show 5 - f.width - g.width = 0 by omega,
    field_pack_head _ fs rfl]
  cases sh <;> rfl

end
end Sys2Proof
end

section
/-! The formats of the instructions (30_encoding.md R201, R209) as the fields of their words, from bit 0 up. -/

namespace Sys2Proof

open BitField

/-- Data processing, immediate. -/
def dpImmLayout (c : Cond) (op : BitVec 4) (s : Bool) (rn rd : Reg) (rot : BitVec 4) (imm : BitVec 8) : List BitField :=
  [bits imm, bits rot, reg rd, reg rn, bit s, bits op, const 3 1, cond c]

/-- Data processing, register shifted by immediate. -/
def dpShiftLayout (c : Cond) (op : BitVec 4) (s : Bool) (rn rd : Reg) (amt : BitVec 5) (sh : ShiftType) (rm : Reg) :
    List BitField :=
  [reg rm, const 1 0, shift sh, bits amt, reg rd, reg rn, bit s, bits op, const 3 0, cond c]

/-- Data processing, register shifted by register. -/
def dpRegLayout (c : Cond) (op : BitVec 4) (s : Bool) (rn rd rs : Reg) (sh : ShiftType) (rm : Reg) : List BitField :=
  [reg rm, const 1 1, shift sh, const 1 0, reg rs, reg rd, reg rn, bit s, bits op, const 3 0, cond c]

/-- Halfword and signed transfers, by L and the bits 7:4. -/
def halfwordLayout (c : Cond) (m : Mode3) (l : Bool) (sh : BitVec 4) (rd : Reg) : List BitField :=
  match m.off with
  | .imm off =>
    [⟨4, off.toNat % 16, Nat.mod_lt _ (by decide)⟩, bits sh, ⟨4, off.toNat / 16, Nat.div_lt_of_lt_mul off.isLt⟩, reg rd,
      reg m.rn, bit l, bit m.wback, const 1 1, bit m.up, bit m.pre, const 3 0, cond c]
  | .reg rm =>
    [reg rm, bits sh, const 4 0, reg rd, reg m.rn, bit l, bit m.wback, const 1 0, bit m.up, bit m.pre, const 3 0,
      cond c]

/-- Word and byte transfers, by the bits P, B, W and L. -/
def singleLayout (c : Cond) (p b w l : Bool) (m : Mode2) (rd : Reg) : List BitField :=
  match m.off with
  | .imm off => [bits off, reg rd, reg m.rn, bit l, bit w, bit b, bit m.up, bit p, const 3 2, cond c]
  | .reg rm sh amt =>
    [reg rm, const 1 0, shift sh, bits amt, reg rd, reg m.rn, bit l, bit w, bit b, bit m.up, bit p, const 3 3, cond c]

/-- Thumb format 5, by op: H1 is bit 3 of Rd. -/
def hiRegsLayout (op : BitVec 2) (rs rd : Reg) : List BitField :=
  [⟨3, rd.val % 8, Nat.mod_lt _ (by decide)⟩, reg rs, ⟨1, rd.val / 8, Nat.div_lt_of_lt_mul rd.isLt⟩, bits op,
    const 6 17]

/-- The fields of an instruction's word or halfword. -/
def Instr.layout : Instr → List BitField
  | .armBx c rm => [reg rm, const 24 0x12FFF1, cond c]
  | .armMul c s rd rs rm => [reg rm, const 4 9, reg rs, const 4 0, reg rd, bit s, const 7 0, cond c]
  | .armMla c s rd rn rs rm => [reg rm, const 4 9, reg rs, reg rn, reg rd, bit s, const 7 1, cond c]
  | .armUmull c s rdHi rdLo rs rm => [reg rm, const 4 9, reg rs, reg rdLo, reg rdHi, bit s, const 7 4, cond c]
  | .armUmlal c s rdHi rdLo rs rm => [reg rm, const 4 9, reg rs, reg rdLo, reg rdHi, bit s, const 7 5, cond c]
  | .armSmull c s rdHi rdLo rs rm => [reg rm, const 4 9, reg rs, reg rdLo, reg rdHi, bit s, const 7 6, cond c]
  | .armSmlal c s rdHi rdLo rs rm => [reg rm, const 4 9, reg rs, reg rdLo, reg rdHi, bit s, const 7 7, cond c]
  | .armSwp c rn rd rm => [reg rm, const 8 9, reg rd, reg rn, const 8 0x10, cond c]
  | .armSwpb c rn rd rm => [reg rm, const 8 9, reg rd, reg rn, const 8 0x14, cond c]
  | .armStrh c m rd => halfwordLayout c m false 11 rd
  | .armLdrh c m rd => halfwordLayout c m true 11 rd
  | .armLdrsb c m rd => halfwordLayout c m true 13 rd
  | .armLdrsh c m rd => halfwordLayout c m true 15 rd
  | .armMrs c r rd => [const 12 0, reg rd, const 6 15, bit r, const 5 2, cond c]
  | .armMsrReg c r mask rm => [reg rm, const 12 0xF00, bits mask, const 2 2, bit r, const 5 2, cond c]
  | .armMsrImm c r mask rot imm => [bits imm, bits rot, const 4 15, bits mask, const 2 2, bit r, const 5 6, cond c]
  | .armUndefSignedStore c b | .armUndefMulSpace c b | .armUndefControl c b | .armUndefTestImm c b
  | .armUndefMedia c b => [bits b, cond c]
  | .armAndImm c s rn rd rot imm => dpImmLayout c 0 s rn rd rot imm
  | .armEorImm c s rn rd rot imm => dpImmLayout c 1 s rn rd rot imm
  | .armSubImm c s rn rd rot imm => dpImmLayout c 2 s rn rd rot imm
  | .armRsbImm c s rn rd rot imm => dpImmLayout c 3 s rn rd rot imm
  | .armAddImm c s rn rd rot imm => dpImmLayout c 4 s rn rd rot imm
  | .armAdcImm c s rn rd rot imm => dpImmLayout c 5 s rn rd rot imm
  | .armSbcImm c s rn rd rot imm => dpImmLayout c 6 s rn rd rot imm
  | .armRscImm c s rn rd rot imm => dpImmLayout c 7 s rn rd rot imm
  | .armTstImm c rn rot imm => dpImmLayout c 8 true rn 0 rot imm
  | .armTeqImm c rn rot imm => dpImmLayout c 9 true rn 0 rot imm
  | .armCmpImm c rn rot imm => dpImmLayout c 10 true rn 0 rot imm
  | .armCmnImm c rn rot imm => dpImmLayout c 11 true rn 0 rot imm
  | .armOrrImm c s rn rd rot imm => dpImmLayout c 12 s rn rd rot imm
  | .armMovImm c s rd rot imm => dpImmLayout c 13 s 0 rd rot imm
  | .armBicImm c s rn rd rot imm => dpImmLayout c 14 s rn rd rot imm
  | .armMvnImm c s rd rot imm => dpImmLayout c 15 s 0 rd rot imm
  | .armAndShift c s rn rd amt sh rm => dpShiftLayout c 0 s rn rd amt sh rm
  | .armEorShift c s rn rd amt sh rm => dpShiftLayout c 1 s rn rd amt sh rm
  | .armSubShift c s rn rd amt sh rm => dpShiftLayout c 2 s rn rd amt sh rm
  | .armRsbShift c s rn rd amt sh rm => dpShiftLayout c 3 s rn rd amt sh rm
  | .armAddShift c s rn rd amt sh rm => dpShiftLayout c 4 s rn rd amt sh rm
  | .armAdcShift c s rn rd amt sh rm => dpShiftLayout c 5 s rn rd amt sh rm
  | .armSbcShift c s rn rd amt sh rm => dpShiftLayout c 6 s rn rd amt sh rm
  | .armRscShift c s rn rd amt sh rm => dpShiftLayout c 7 s rn rd amt sh rm
  | .armTstShift c rn amt sh rm => dpShiftLayout c 8 true rn 0 amt sh rm
  | .armTeqShift c rn amt sh rm => dpShiftLayout c 9 true rn 0 amt sh rm
  | .armCmpShift c rn amt sh rm => dpShiftLayout c 10 true rn 0 amt sh rm
  | .armCmnShift c rn amt sh rm => dpShiftLayout c 11 true rn 0 amt sh rm
  | .armOrrShift c s rn rd amt sh rm => dpShiftLayout c 12 s rn rd amt sh rm
  | .armMovShift c s rd amt sh rm => dpShiftLayout c 13 s 0 rd amt sh rm
  | .armBicShift c s rn rd amt sh rm => dpShiftLayout c 14 s rn rd amt sh rm
  | .armMvnShift c s rd amt sh rm => dpShiftLayout c 15 s 0 rd amt sh rm
  | .armAndReg c s rn rd rs sh rm => dpRegLayout c 0 s rn rd rs sh rm
  | .armEorReg c s rn rd rs sh rm => dpRegLayout c 1 s rn rd rs sh rm
  | .armSubReg c s rn rd rs sh rm => dpRegLayout c 2 s rn rd rs sh rm
  | .armRsbReg c s rn rd rs sh rm => dpRegLayout c 3 s rn rd rs sh rm
  | .armAddReg c s rn rd rs sh rm => dpRegLayout c 4 s rn rd rs sh rm
  | .armAdcReg c s rn rd rs sh rm => dpRegLayout c 5 s rn rd rs sh rm
  | .armSbcReg c s rn rd rs sh rm => dpRegLayout c 6 s rn rd rs sh rm
  | .armRscReg c s rn rd rs sh rm => dpRegLayout c 7 s rn rd rs sh rm
  | .armTstReg c rn rs sh rm => dpRegLayout c 8 true rn 0 rs sh rm
  | .armTeqReg c rn rs sh rm => dpRegLayout c 9 true rn 0 rs sh rm
  | .armCmpReg c rn rs sh rm => dpRegLayout c 10 true rn 0 rs sh rm
  | .armCmnReg c rn rs sh rm => dpRegLayout c 11 true rn 0 rs sh rm
  | .armOrrReg c s rn rd rs sh rm => dpRegLayout c 12 s rn rd rs sh rm
  | .armMovReg c s rd rs sh rm => dpRegLayout c 13 s 0 rd rs sh rm
  | .armBicReg c s rn rd rs sh rm => dpRegLayout c 14 s rn rd rs sh rm
  | .armMvnReg c s rd rs sh rm => dpRegLayout c 15 s 0 rd rs sh rm
  | .armStrPre c w m rd => singleLayout c true false w false m rd
  | .armLdrPre c w m rd => singleLayout c true false w true m rd
  | .armStrbPre c w m rd => singleLayout c true true w false m rd
  | .armLdrbPre c w m rd => singleLayout c true true w true m rd
  | .armStrPost c m rd => singleLayout c false false false false m rd
  | .armLdrPost c m rd => singleLayout c false false false true m rd
  | .armStrbPost c m rd => singleLayout c false true false false m rd
  | .armLdrbPost c m rd => singleLayout c false true false true m rd
  | .armStrt c m rd => singleLayout c false false true false m rd
  | .armLdrt c m rd => singleLayout c false false true true m rd
  | .armStrbt c m rd => singleLayout c false true true false m rd
  | .armLdrbt c m rd => singleLayout c false true true true m rd
  | .armStm c p u s w rn list => [bits list, reg rn, const 1 0, bit w, bit s, bit u, bit p, const 3 4, cond c]
  | .armLdm c p u s w rn list => [bits list, reg rn, const 1 1, bit w, bit s, bit u, bit p, const 3 4, cond c]
  | .armB c off => [bits off, const 4 10, cond c]
  | .armBl c off => [bits off, const 4 11, cond c]
  | .armStc c p u n w rn crd cp off =>
    [bits off, bits cp, bits crd, reg rn, const 1 0, bit w, bit n, bit u, bit p, const 3 6, cond c]
  | .armLdc c p u n w rn crd cp off =>
    [bits off, bits cp, bits crd, reg rn, const 1 1, bit w, bit n, bit u, bit p, const 3 6, cond c]
  | .armCdp c opc1 crn crd cp opc2 crm =>
    [bits crm, const 1 0, bits opc2, bits cp, bits crd, bits crn, bits opc1, const 4 14, cond c]
  | .armMcr c opc1 crn rd cp opc2 crm =>
    [bits crm, const 1 1, bits opc2, bits cp, reg rd, bits crn, const 1 0, bits opc1, const 4 14, cond c]
  | .armMrc c opc1 crn rd cp opc2 crm =>
    [bits crm, const 1 1, bits opc2, bits cp, reg rd, bits crn, const 1 1, bits opc1, const 4 14, cond c]
  | .armSwi c comment => [bits comment, const 4 15, cond c]
  | .thumbLslImm off rs rd => [low rd, low rs, bits off, const 5 0]
  | .thumbLsrImm off rs rd => [low rd, low rs, bits off, const 5 1]
  | .thumbAsrImm off rs rd => [low rd, low rs, bits off, const 5 2]
  | .thumbAddReg rn rs rd => [low rd, low rs, low rn, const 7 0xC]
  | .thumbSubReg rn rs rd => [low rd, low rs, low rn, const 7 0xD]
  | .thumbAddImm3 imm rs rd => [low rd, low rs, bits imm, const 7 0xE]
  | .thumbSubImm3 imm rs rd => [low rd, low rs, bits imm, const 7 0xF]
  | .thumbMovImm rd imm => [bits imm, low rd, const 5 4]
  | .thumbCmpImm rd imm => [bits imm, low rd, const 5 5]
  | .thumbAddImm8 rd imm => [bits imm, low rd, const 5 6]
  | .thumbSubImm8 rd imm => [bits imm, low rd, const 5 7]
  | .thumbAnd rs rd => [low rd, low rs, const 10 0x100]
  | .thumbEor rs rd => [low rd, low rs, const 10 0x101]
  | .thumbLslReg rs rd => [low rd, low rs, const 10 0x102]
  | .thumbLsrReg rs rd => [low rd, low rs, const 10 0x103]
  | .thumbAsrReg rs rd => [low rd, low rs, const 10 0x104]
  | .thumbAdc rs rd => [low rd, low rs, const 10 0x105]
  | .thumbSbc rs rd => [low rd, low rs, const 10 0x106]
  | .thumbRor rs rd => [low rd, low rs, const 10 0x107]
  | .thumbTst rs rd => [low rd, low rs, const 10 0x108]
  | .thumbNeg rs rd => [low rd, low rs, const 10 0x109]
  | .thumbCmp rs rd => [low rd, low rs, const 10 0x10A]
  | .thumbCmn rs rd => [low rd, low rs, const 10 0x10B]
  | .thumbOrr rs rd => [low rd, low rs, const 10 0x10C]
  | .thumbMul rs rd => [low rd, low rs, const 10 0x10D]
  | .thumbBic rs rd => [low rd, low rs, const 10 0x10E]
  | .thumbMvn rs rd => [low rd, low rs, const 10 0x10F]
  | .thumbAddHi rs rd => hiRegsLayout 0 rs rd
  | .thumbCmpHi rs rd => hiRegsLayout 1 rs rd
  | .thumbMovHi rs rd => hiRegsLayout 2 rs rd
  | .thumbBx rs => hiRegsLayout 3 rs 0
  | .thumbLdrPc rd word => [bits word, low rd, const 5 9]
  | .thumbStrReg ro rb rd => [low rd, low rb, low ro, const 7 0x28]
  | .thumbStrhReg ro rb rd => [low rd, low rb, low ro, const 7 0x29]
  | .thumbStrbReg ro rb rd => [low rd, low rb, low ro, const 7 0x2A]
  | .thumbLdsbReg ro rb rd => [low rd, low rb, low ro, const 7 0x2B]
  | .thumbLdrReg ro rb rd => [low rd, low rb, low ro, const 7 0x2C]
  | .thumbLdrhReg ro rb rd => [low rd, low rb, low ro, const 7 0x2D]
  | .thumbLdrbReg ro rb rd => [low rd, low rb, low ro, const 7 0x2E]
  | .thumbLdshReg ro rb rd => [low rd, low rb, low ro, const 7 0x2F]
  | .thumbStrImm off rb rd => [low rd, low rb, bits off, const 5 12]
  | .thumbLdrImm off rb rd => [low rd, low rb, bits off, const 5 13]
  | .thumbStrbImm off rb rd => [low rd, low rb, bits off, const 5 14]
  | .thumbLdrbImm off rb rd => [low rd, low rb, bits off, const 5 15]
  | .thumbStrhImm off rb rd => [low rd, low rb, bits off, const 5 16]
  | .thumbLdrhImm off rb rd => [low rd, low rb, bits off, const 5 17]
  | .thumbStrSp rd word => [bits word, low rd, const 5 18]
  | .thumbLdrSp rd word => [bits word, low rd, const 5 19]
  | .thumbAddPc rd word => [bits word, low rd, const 5 20]
  | .thumbAddSp rd word => [bits word, low rd, const 5 21]
  | .thumbIncSp word => [bits word, const 9 0x160]
  | .thumbDecSp word => [bits word, const 9 0x161]
  | .thumbPush r list => [bits list, bit r, const 7 0x5A]
  | .thumbPop r list => [bits list, bit r, const 7 0x5E]
  | .thumbUndef1011 b => [bits b, const 4 11]
  | .thumbStmia rb list => [bits list, low rb, const 5 24]
  | .thumbLdmia rb list => [bits list, low rb, const 5 25]
  | .thumbSwi value => [bits value, const 8 0xDF]
  | .thumbUndefCond b => [bits b, const 8 0xDE]
  | .thumbBcond c off => [bits off, cond c, const 4 13]
  | .thumbB off => [bits off, const 5 28]
  | .thumbUndefBlx b => [bits b, const 5 29]
  | .thumbBlPrefix off => [bits off, const 5 30]
  | .thumbBlSuffix off => [bits off, const 5 31]

/-- The model's encoder writes these fields. -/
theorem encode_eq_pack (i : Instr) : encode i = pack i.layout := by
  unfold encode Instr.layout
  cases i with
  | armStrh _ m | armLdrh _ m | armLdrsb _ m | armLdrsh _ m =>
    obtain ⟨_, _, _, _, off⟩ := m
    cases off <;> simp only [halfwordLayout, Mode3.bits, pack, Bool.toNat_true, Bool.toNat_false, BitVec.reduceToNat,
      BitVec.ofNat_eq_ofNat] <;> ring
  | armStrPre _ _ m | armLdrPre _ _ m | armStrbPre _ _ m | armLdrbPre _ _ m | armStrPost _ m | armLdrPost _ m
  | armStrbPost _ m | armLdrbPost _ m | armStrt _ m | armLdrt _ m | armStrbt _ m | armLdrbt _ m =>
    obtain ⟨_, _, off⟩ := m
    cases off <;> simp only [singleLayout, Mode2.bits, pack, Bool.toNat_true, Bool.toNat_false] <;> ring
  | _ =>
    simp only [dpImmLayout, dpShiftLayout, dpRegLayout, hiRegsLayout, pack, Bool.toNat_true, BitVec.reduceToNat,
      BitVec.ofNat_eq_ofNat, Fin.val_zero]
    ring
end Sys2Proof
end

section
/-! Decoding an encoded instruction: the word of each format passes the test of its own row of 30_encoding.md R202 or
R210 and fails the rows before it. -/

namespace Sys2Proof

open BitField

/-! ### Data processing (row 14 of R202) -/

section
variable (c : Cond) (op : BitVec 4) (s : Bool) (rn rd rs rm : Reg) (sh : ShiftType)

theorem dpImm_fields (rot : BitVec 4) (imm : BitVec 8) :
    let w := pack (dpImmLayout c op s rn rd rot imm)
    field w 21 4 = op.toNat ∧ condAt w 28 = c ∧ bitAt w 20 = s ∧ regAt w 16 = rn ∧ regAt w 12 = rd ∧
      BitVec.ofNat 4 (fieldsFrom w 8) = rot ∧ BitVec.ofNat 8 (fieldsFrom w 0) = imm := by
  simp [dpImmLayout, op.isLt]

theorem dpShift_fields (amt : BitVec 5) :
    let w := pack (dpShiftLayout c op s rn rd amt sh rm)
    field w 21 4 = op.toNat ∧ condAt w 28 = c ∧ bitAt w 20 = s ∧ regAt w 16 = rn ∧ regAt w 12 = rd ∧
      BitVec.ofNat 5 (fieldsFrom w 7) = amt ∧ shiftAt w = sh ∧ regAt w 0 = rm := by
  simp [dpShiftLayout, op.isLt]

theorem dpReg_fields :
    let w := pack (dpRegLayout c op s rn rd rs sh rm)
    field w 21 4 = op.toNat ∧ condAt w 28 = c ∧ bitAt w 20 = s ∧ regAt w 16 = rn ∧ regAt w 12 = rd ∧
      regAt w 8 = rs ∧ shiftAt w = sh ∧ regAt w 0 = rm := by
  simp [dpRegLayout, op.isLt]

end

section
variable {c : Cond} {op : BitVec 4} {s : Bool} {rn rd rs rm : Reg} {sh : ShiftType}

/-- TST to CMN with S = 0 would be a status transfer or undefined (rows 9 to 13). -/
theorem decodeArm_dpImm {rot : BitVec 4} {imm : BitVec 8} (h : op.toNat / 4 = 2 → s = true) :
    decodeArm (pack (dpImmLayout c op s rn rd rot imm)) = decodeDpImm (pack (dpImmLayout c op s rn rd rot imm)) := by
  cases s with
  | true => simp [decodeArm, dpImmLayout]
  | false =>
    have hop : op.toNat / 4 ≠ 2 := fun e => nomatch h e
    simp [decodeArm, dpImmLayout, hop]

theorem decodeArm_dpShift {amt : BitVec 5} (h : op.toNat / 4 = 2 → s = true) :
    decodeArm (pack (dpShiftLayout c op s rn rd amt sh rm)) =
      decodeDpShift (pack (dpShiftLayout c op s rn rd amt sh rm)) := by
  cases s with
  | true => simp [decodeArm, dpShiftLayout]
  | false =>
    have hop : op.toNat / 4 ≠ 2 := fun e => nomatch h e
    simp [decodeArm, dpShiftLayout, hop]

/-- Opcode 9 with S = 0 and bits 7:4 = 0001 would be BX (row 1). -/
theorem decodeArm_dpReg (h : op.toNat / 4 = 2 → s = true) :
    decodeArm (pack (dpRegLayout c op s rn rd rs sh rm)) = decodeDpReg (pack (dpRegLayout c op s rn rd rs sh rm)) := by
  cases s with
  | true => simp [decodeArm, dpRegLayout]
  | false =>
    have hop : op.toNat / 4 ≠ 2 := fun e => nomatch h e
    have hbx : op.toNat ≠ 9 := fun e => hop (by rw [e])
    simp [decodeArm, dpRegLayout, hop, hbx]

end

/-! ### Transfers (rows 5, 6 and 16 of R202) -/

theorem mode3At_halfword (c : Cond) (m : Mode3) (l : Bool) (sh : BitVec 4) (rd : Reg) :
    mode3At (pack (halfwordLayout c m l sh rd)) = m := by
  obtain ⟨p, u, w, rn, off⟩ := m
  cases off with
  | reg => simp [halfwordLayout, mode3At]
  | imm off =>
    have hoff : off.toNat / 16 % 16 * 16 + off.toNat % 16 = off.toNat := by omega
    simp [halfwordLayout, mode3At, hoff]

theorem halfword_fields (c : Cond) (m : Mode3) (l : Bool) (sh : BitVec 4) (rd : Reg) :
    let w := pack (halfwordLayout c m l sh rd)
    condAt w 28 = c ∧ field w 25 3 = 0 ∧ field w 20 1 = l.toNat ∧ regAt w 12 = rd ∧ field w 4 4 = sh.toNat ∧
      field w 6 2 = sh.toNat / 4 % 4 ∧ field w 5 1 = sh.toNat / 2 % 2 ∧ field w 4 1 = sh.toNat % 2 ∧ mode3At w = m := by
  simp only [mode3At_halfword, and_true]
  cases h : m.off <;> simp [halfwordLayout, h, sh.isLt, Bool.toNat_le]

theorem single_fields (c : Cond) (p b x l : Bool) (m : Mode2) (rd : Reg) :
    let w := pack (singleLayout c p b x l m rd)
    condAt w 28 = c ∧ field w 24 1 = p.toNat ∧ field w 22 1 = b.toNat ∧ field w 21 1 = x.toNat ∧ bitAt w 21 = x ∧
      field w 20 1 = l.toNat ∧ regAt w 12 = rd ∧ mode2At w = m := by
  obtain ⟨u, rn, off⟩ := m
  cases off <;> simp [singleLayout, mode2At, Bool.toNat_le]

theorem decodeArm_single (c : Cond) (p b w l : Bool) (m : Mode2) (rd : Reg) :
    decodeArm (pack (singleLayout c p b w l m rd)) = decodeSingle (pack (singleLayout c p b w l m rd)) := by
  cases h : m.off <;> simp [decodeArm, singleLayout, h]

/-! ### Undefined encodings (rows 7, 8, 12, 13 and 15 of R202) -/

section
variable {c : Cond} {b : BitVec 28}

theorem field_undef {lo n : Nat} (h : lo + n ≤ 28) : field (pack [bits b, cond c]) lo n = bitsOf b lo n :=
  field_pack_inside _ _ h

theorem decodeArm_undefSignedStore (h : undefSignedStoreOk b) :
    decodeArm (pack [bits b, cond c]) = .armUndefSignedStore c b := by
  unfold decodeArm
  simp only [undefSignedStoreOk, bitsOf] at h
  iterate 6 refine (if_neg (by simp (disch := decide) only [field_undef, bitsOf]; omega)).trans ?_
  refine (if_pos (by simp (disch := decide) only [field_undef, bitsOf]; omega)).trans ?_
  simp

theorem decodeArm_undefMulSpace (h : undefMulSpaceOk b) :
    decodeArm (pack [bits b, cond c]) = .armUndefMulSpace c b := by
  unfold decodeArm
  simp only [undefMulSpaceOk, bitsOf] at h
  iterate 7 refine (if_neg (by simp (disch := decide) only [field_undef, bitsOf]; omega)).trans ?_
  refine (if_pos (by simp (disch := decide) only [field_undef, bitsOf]; omega)).trans ?_
  simp

theorem decodeArm_undefControl (h : undefControlOk b) : decodeArm (pack [bits b, cond c]) = .armUndefControl c b := by
  unfold decodeArm
  simp only [undefControlOk, bitsOf] at h
  iterate 11 refine (if_neg (by simp (disch := decide) only [field_undef, bitsOf]; omega)).trans ?_
  refine (if_pos (by simp (disch := decide) only [field_undef, bitsOf]; omega)).trans ?_
  simp

theorem decodeArm_undefTestImm (h : undefTestImmOk b) : decodeArm (pack [bits b, cond c]) = .armUndefTestImm c b := by
  unfold decodeArm
  simp only [undefTestImmOk, bitsOf] at h
  iterate 12 refine (if_neg (by simp (disch := decide) only [field_undef, bitsOf]; omega)).trans ?_
  refine (if_pos (by simp (disch := decide) only [field_undef, bitsOf]; omega)).trans ?_
  simp

theorem decodeArm_undefMedia (h : undefMediaOk b) : decodeArm (pack [bits b, cond c]) = .armUndefMedia c b := by
  unfold decodeArm
  simp only [undefMediaOk, bitsOf] at h
  iterate 14 refine (if_neg (by simp (disch := decide) only [field_undef, bitsOf]; omega)).trans ?_
  refine (if_pos (by simp (disch := decide) only [field_undef, bitsOf]; omega)).trans ?_
  simp

end

/-- Every well-formed ARM instruction is what its fields decode to. -/
theorem decodeArm_layout (i : Instr) (hwf : i.WellFormed) (harm : i.isThumb = false) :
    decodeArm (pack i.layout) = i := by
  cases i with
  | armAndImm | armEorImm | armSubImm | armRsbImm | armAddImm | armAdcImm | armSbcImm | armRscImm | armOrrImm
  | armMovImm | armBicImm | armMvnImm | armTstImm | armTeqImm | armCmpImm | armCmnImm =>
    exact (decodeArm_dpImm (by simp)).trans (by simp [decodeDpImm, dpImm_fields])
  | armAndShift | armEorShift | armSubShift | armRsbShift | armAddShift | armAdcShift | armSbcShift | armRscShift
  | armOrrShift | armMovShift | armBicShift | armMvnShift | armTstShift | armTeqShift | armCmpShift | armCmnShift =>
    exact (decodeArm_dpShift (by simp)).trans (by simp [decodeDpShift, dpShift_fields])
  | armAndReg | armEorReg | armSubReg | armRsbReg | armAddReg | armAdcReg | armSbcReg | armRscReg | armOrrReg
  | armMovReg | armBicReg | armMvnReg | armTstReg | armTeqReg | armCmpReg | armCmnReg =>
    exact (decodeArm_dpReg (by simp)).trans (by simp [decodeDpReg, dpReg_fields])
  | armUmull | armUmlal | armSmull | armSmlal => simp [decodeArm, decodeMulLong, Instr.layout]
  | armStrh | armLdrh | armLdrsb | armLdrsh => simp [decodeArm, halfword_fields, Instr.layout]
  | armStrPre | armLdrPre | armStrbPre | armLdrbPre | armStrPost | armLdrPost | armStrbPost | armLdrbPost | armStrt
  | armLdrt | armStrbt | armLdrbt => exact (decodeArm_single ..).trans (by simp [decodeSingle, single_fields])
  | armUndefSignedStore => exact decodeArm_undefSignedStore hwf
  | armUndefMulSpace => exact decodeArm_undefMulSpace hwf
  | armUndefControl => exact decodeArm_undefControl hwf
  | armUndefTestImm => exact decodeArm_undefTestImm hwf
  | armUndefMedia => exact decodeArm_undefMedia hwf
  | armBx | armMul | armMla | armSwp | armSwpb | armMrs | armMsrReg | armMsrImm | armStm | armLdm | armB | armBl
  | armStc | armLdc | armCdp | armMcr | armMrc | armSwi => simp [decodeArm, Instr.layout]
  | _ => cases harm

/-! ### Thumb -/

/-- Rd of format 5 from its two parts. -/
@[simp] theorem hiRdAt_pack_parts (rd rs : Reg) (fs : List BitField) (hlo : rd.val % 8 < 2 ^ 3)
    (hhi : rd.val / 8 < 2 ^ 1) :
    hiRdAt (pack (⟨3, rd.val % 8, hlo⟩ :: reg rs :: ⟨1, rd.val / 8, hhi⟩ :: fs)) = rd := by
  have hrd : rd.val / 8 % 2 * 8 + rd.val % 8 = rd.val := by omega
  simp [hiRdAt, hrd]

theorem decodeThumb_undef1011 {b : BitVec 12} (h : undef1011Ok b) :
    decodeThumb (pack [bits b, const 4 11]) = .thumbUndef1011 b := by
  simp only [undef1011Ok, bitsOf] at h
  have h13 : ¬ b.toNat < 256 := by omega
  have h14 : b.toNat / 512 % 4 ≠ 2 := by omega
  simp [decodeThumb, h13, h14]

theorem decodeThumb_bcond {c : Cond} {off : BitVec 8} (h : condBranchOk c) :
    decodeThumb (pack [bits off, cond c, const 4 13]) = .thumbBcond c off := by
  obtain ⟨hal, hnv⟩ := h
  have h14 : c.number ≠ 14 := by cases c <;> simp_all [Cond.number]
  have h15 : c.number ≠ 15 := by cases c <;> simp_all [Cond.number]
  simp [decodeThumb, h14, h15]

/-- Every well-formed Thumb instruction is what its fields decode to. -/
theorem decodeThumb_layout (i : Instr) (hwf : i.WellFormed) (hthumb : i.isThumb = true) :
    decodeThumb (pack i.layout) = i := by
  cases i with
  | thumbUndef1011 => exact decodeThumb_undef1011 hwf
  | thumbBcond => exact decodeThumb_bcond hwf
  | thumbAnd | thumbEor | thumbLslReg | thumbLsrReg | thumbAsrReg | thumbAdc | thumbSbc | thumbRor | thumbTst | thumbNeg
  | thumbCmp | thumbCmn | thumbOrr | thumbMul | thumbBic | thumbMvn => simp [decodeThumb, decodeThumbAlu, Instr.layout]
  | thumbAddHi | thumbCmpHi | thumbMovHi | thumbBx => simp [decodeThumb, hiRegsLayout, Instr.layout]
  | thumbStrReg | thumbStrbReg | thumbStrhReg | thumbLdrReg | thumbLdrbReg | thumbLdrhReg | thumbLdsbReg
  | thumbLdshReg => simp [decodeThumb, decodeThumbRegOffset, Instr.layout]
  | thumbLslImm | thumbLsrImm | thumbAsrImm | thumbAddReg | thumbSubReg | thumbAddImm3 | thumbSubImm3 | thumbMovImm
  | thumbCmpImm | thumbAddImm8 | thumbSubImm8 | thumbLdrPc | thumbStrImm | thumbLdrImm | thumbStrbImm | thumbLdrbImm
  | thumbStrhImm | thumbLdrhImm | thumbStrSp | thumbLdrSp | thumbAddPc | thumbAddSp | thumbIncSp | thumbDecSp
  | thumbPush | thumbPop | thumbStmia | thumbLdmia | thumbSwi | thumbUndefCond | thumbB | thumbUndefBlx | thumbBlPrefix
  | thumbBlSuffix => simp [decodeThumb, Instr.layout]
  | _ => cases hthumb

end Sys2Proof

open Sys2Proof

/-- Settles O2: the encoder writes the fields of R201, which decode to the instruction. -/
theorem armDecodeEncode : Obligations.ArmDecodeEncode := fun i hwf harm =>
  (congrArg decodeArm (encode_eq_pack i)).trans (decodeArm_layout i hwf harm)

/-- Settles O3: the encoder writes the fields of R209, which decode to the instruction. -/
theorem thumbDecodeEncode : Obligations.ThumbDecodeEncode := fun i hwf hthumb =>
  (congrArg decodeThumb (encode_eq_pack i)).trans (decodeThumb_layout i hwf hthumb)
end

section
/-! Whatever the word, the decoder answers a well-formed instruction of its state (30_encoding.md R202, R210). -/

namespace Sys2Proof

variable (w : Nat)

/-- A well-formed instruction of ARM state (`false`) or of Thumb state (`true`). -/
def Instr.OkIn (thumb : Bool) (i : Instr) : Prop := i.WellFormed ∧ i.isThumb = thumb

theorem Instr.OkIn.ite {thumb : Bool} {p : Prop} [Decidable p] {i j : Instr} (hi : p → i.OkIn thumb)
    (hj : ¬p → j.OkIn thumb) : (if p then i else j).OkIn thumb := by
  split
  · exact hi ‹_›
  · exact hj ‹_›

theorem Instr.OkIn.either {thumb : Bool} {p : Prop} [Decidable p] {i j : Instr} (hi : i.OkIn thumb)
    (hj : j.OkIn thumb) : (if p then i else j).OkIn thumb := .ite (fun _ => hi) fun _ => hj

/-- The bits that an undefined encoding carries are those of the word. -/
theorem bitsOf_ofNat {m lo n : Nat} (h : lo + n ≤ m) :
    bitsOf (BitVec.ofNat m (fieldsFrom w 0)) lo n = field w lo n := by
  obtain ⟨k, rfl⟩ := Nat.exists_eq_add_of_le h
  rw [bitsOf, field, fieldsFrom, BitVec.toNat_ofNat, pow_zero, Nat.div_one, add_assoc, pow_add,
    Nat.mod_mul_right_div_self, Nat.mod_mod_of_dvd _ (pow_dvd_pow 2 (Nat.le_add_right n k))]

theorem decodeMulLong_okIn : (decodeMulLong w).OkIn false := by
  unfold decodeMulLong
  split <;> exact ⟨trivial, rfl⟩

theorem decodeDpImm_okIn : (decodeDpImm w).OkIn false := by
  unfold decodeDpImm
  split <;> exact ⟨trivial, rfl⟩

theorem decodeDpShift_okIn : (decodeDpShift w).OkIn false := by
  unfold decodeDpShift
  split <;> exact ⟨trivial, rfl⟩

theorem decodeDpReg_okIn : (decodeDpReg w).OkIn false := by
  unfold decodeDpReg
  split <;> exact ⟨trivial, rfl⟩

theorem decodeSingle_okIn : (decodeSingle w).OkIn false := by
  unfold decodeSingle
  refine .ite (fun _ => ?_) fun _ => .ite (fun _ => ?_) fun _ => ?_
  all_goals split <;> exact ⟨trivial, rfl⟩

/-- The bits of row 8 are in its space, for they are none of rows 2 to 4. -/
theorem undefMulSpaceOk_of_fields (h2 : ¬(field w 22 6 = 0 ∧ field w 4 4 = 9))
    (h3 : ¬(field w 23 5 = 1 ∧ field w 4 4 = 9)) (h4 : ¬(field w 23 5 = 2 ∧ field w 20 2 = 0 ∧ field w 4 4 = 9))
    (h8 : field w 25 3 = 0 ∧ field w 4 4 = 9) : undefMulSpaceOk (BitVec.ofNat 28 (fieldsFrom w 0)) := by
  simp (disch := decide) only [undefMulSpaceOk, bitsOf_ofNat]
  tauto

/-- The bits of row 12 are in its space, for they are none of rows 1, 5 to 8, 9 and 10. -/
theorem undefControlOk_of_fields (h1 : ¬(field w 20 8 = 0x12 ∧ field w 4 4 = 1))
    (h5 : ¬(field w 25 3 = 0 ∧ field w 4 4 = 11))
    (h6 : ¬(field w 25 3 = 0 ∧ field w 20 1 = 1 ∧ field w 6 2 = 3 ∧ field w 4 1 = 1))
    (h7 : ¬(field w 25 3 = 0 ∧ field w 20 1 = 0 ∧ field w 6 2 = 3 ∧ field w 4 1 = 1))
    (h8 : ¬(field w 25 3 = 0 ∧ field w 4 4 = 9)) (h9 : ¬(field w 23 5 = 2 ∧ field w 20 2 = 0 ∧ field w 4 4 = 0))
    (h10 : ¬(field w 23 5 = 2 ∧ field w 20 2 = 2 ∧ field w 4 4 = 0)) (h12 : field w 23 5 = 2 ∧ field w 20 1 = 0) :
    undefControlOk (BitVec.ofNat 28 (fieldsFrom w 0)) := by
  simp (disch := decide) only [undefControlOk, bitsOf_ofNat]
  simp only [field] at *
  omega

/-- Row by row of R202; only the undefined rows 7, 8, 12, 13 and 15 ask anything of the bits. -/
theorem decodeArm_okIn : (decodeArm w).OkIn false := by
  unfold decodeArm
  refine .ite (fun _ => ⟨trivial, rfl⟩) fun h1 => ?_
  refine .ite (fun _ => .either ⟨trivial, rfl⟩ ⟨trivial, rfl⟩) fun h2 => ?_
  refine .ite (fun _ => decodeMulLong_okIn w) fun h3 => ?_
  refine .ite (fun _ => .either ⟨trivial, rfl⟩ ⟨trivial, rfl⟩) fun h4 => ?_
  refine .ite (fun _ => .either ⟨trivial, rfl⟩ ⟨trivial, rfl⟩) fun h5 => ?_
  refine .ite (fun _ => .either ⟨trivial, rfl⟩ ⟨trivial, rfl⟩) fun h6 => ?_
  refine .ite (fun h => ⟨by simpa (disch := decide) only [Instr.WellFormed, undefSignedStoreOk, bitsOf_ofNat] using h,
    rfl⟩) fun h7 => ?_
  refine .ite (fun h8 => ⟨undefMulSpaceOk_of_fields w h2 h3 h4 h8, rfl⟩) fun h8 => ?_
  refine .ite (fun _ => ⟨trivial, rfl⟩) fun h9 => ?_
  refine .ite (fun _ => ⟨trivial, rfl⟩) fun h10 => ?_
  refine .ite (fun _ => ⟨trivial, rfl⟩) fun _ => ?_
  refine .ite (fun h12 => ⟨undefControlOk_of_fields w h1 h5 h6 h7 h8 h9 h10 h12, rfl⟩) fun _ => ?_
  refine .ite (fun h => ⟨by simpa (disch := decide) only [Instr.WellFormed, undefTestImmOk, bitsOf_ofNat] using h,
    rfl⟩) fun _ => ?_
  refine .ite (fun _ => .either (decodeDpImm_okIn w) (.either (decodeDpShift_okIn w) (decodeDpReg_okIn w))) fun _ => ?_
  refine .ite (fun h => ⟨by simpa (disch := decide) only [Instr.WellFormed, undefMediaOk, bitsOf_ofNat] using h,
    rfl⟩) fun _ => ?_
  refine .ite (fun _ => decodeSingle_okIn w) fun _ => ?_
  refine .ite (fun _ => .either ⟨trivial, rfl⟩ ⟨trivial, rfl⟩) fun _ => ?_
  refine .ite (fun _ => .either ⟨trivial, rfl⟩ ⟨trivial, rfl⟩) fun _ => ?_
  refine .ite (fun _ => .either ⟨trivial, rfl⟩ ⟨trivial, rfl⟩) fun _ => ?_
  refine .ite (fun _ => ⟨trivial, rfl⟩) fun _ => ?_
  exact .ite (fun _ => .either ⟨trivial, rfl⟩ ⟨trivial, rfl⟩) fun _ => ⟨trivial, rfl⟩

theorem decodeThumbAlu_okIn : (decodeThumbAlu w).OkIn true := by
  unfold decodeThumbAlu
  split <;> exact ⟨trivial, rfl⟩

theorem decodeThumbRegOffset_okIn : (decodeThumbRegOffset w).OkIn true := by
  unfold decodeThumbRegOffset
  split <;> exact ⟨trivial, rfl⟩

theorem condBranchOk_ofNumber : ∀ n < 14, condBranchOk (Cond.ofNumber n) := by decide

/-- Row by row of R210; only rows 15 and 19 ask anything of the fields. -/
theorem decodeThumb_okIn : (decodeThumb w).OkIn true := by
  unfold decodeThumb
  refine .ite (fun _ => by split <;> exact ⟨trivial, rfl⟩) fun _ => ?_
  refine .ite (fun _ => by split <;> exact ⟨trivial, rfl⟩) fun _ => ?_
  refine .ite (fun _ => by split <;> exact ⟨trivial, rfl⟩) fun _ => ?_
  refine .ite (fun _ => decodeThumbAlu_okIn w) fun _ => ?_
  refine .ite (fun _ => by split <;> exact ⟨trivial, rfl⟩) fun _ => ?_
  refine .ite (fun _ => ⟨trivial, rfl⟩) fun _ => ?_
  refine .ite (fun _ => decodeThumbRegOffset_okIn w) fun _ => ?_
  refine .ite (fun _ => by split <;> exact ⟨trivial, rfl⟩) fun _ => ?_
  iterate 3 refine .ite (fun _ => .either ⟨trivial, rfl⟩ ⟨trivial, rfl⟩) fun _ => ?_
  refine .ite (fun _ => .either ⟨trivial, rfl⟩ ⟨trivial, rfl⟩) fun h13 => ?_
  refine .ite (fun _ => .either ⟨trivial, rfl⟩ ⟨trivial, rfl⟩) fun h14 => ?_
  refine .ite (fun h15 => ⟨?_, rfl⟩) fun _ => ?_
  · simp (disch := decide) only [Instr.WellFormed, undef1011Ok, bitsOf_ofNat]
    simp only [field] at *
    omega
  refine .ite (fun _ => .either ⟨trivial, rfl⟩ ⟨trivial, rfl⟩) fun _ => ?_
  refine .ite (fun _ => ⟨trivial, rfl⟩) fun h17 => ?_
  refine .ite (fun _ => ⟨trivial, rfl⟩) fun h18 => ?_
  refine .ite (fun h19 => ⟨condBranchOk_ofNumber _ ?_, rfl⟩) fun _ => by split <;> exact ⟨trivial, rfl⟩
  simp only [field] at *
  omega

end Sys2Proof

open Sys2Proof

/-- Settles O4, row by row of the decode tables. -/
theorem decodeIsTotalAndWellFormed : Obligations.DecodeIsTotalAndWellFormed :=
  ⟨fun w _ => decodeArm_okIn w, fun w _ => decodeThumb_okIn w⟩
end

section
/-! Conditions and undefined encodings (30_encoding.md R203 to R205, R214). -/

open Sys2Proof

namespace Sys2Proof.Machine

/-- Every ARM instruction has a condition, and its meaning runs under it. -/
theorem exec_arm_eq_whenCond (i : Instr) (s : State) (harm : i.isThumb = false) :
    ∃ c f, condOf i = some c ∧ exec i s = whenCond c s f := by
  unfold exec
  cases i with
  | armAndImm | armEorImm | armSubImm | armRsbImm | armAddImm | armAdcImm | armSbcImm | armRscImm | armOrrImm
  | armMovImm | armBicImm | armMvnImm => exact ⟨_, _, rfl, (rfl : dpImm _ _ _ _ _ _ _ s = whenCond _ s _)⟩
  | armAndShift | armEorShift | armSubShift | armRsbShift | armAddShift | armAdcShift | armSbcShift | armRscShift
  | armOrrShift | armMovShift | armBicShift | armMvnShift =>
    exact ⟨_, _, rfl, (rfl : dpShift _ _ _ _ _ _ _ _ s = whenCond _ s _)⟩
  | armAndReg | armEorReg | armSubReg | armRsbReg | armAddReg | armAdcReg | armSbcReg | armRscReg | armOrrReg
  | armMovReg | armBicReg | armMvnReg => exact ⟨_, _, rfl, (rfl : dpReg _ _ _ _ _ _ _ _ s = whenCond _ s _)⟩
  | armTstImm | armTeqImm | armCmpImm | armCmnImm =>
    exact ⟨_, _, rfl, (rfl : testImm _ _ _ _ _ s = whenCond _ s _)⟩
  | armTstShift | armTeqShift | armCmpShift | armCmnShift =>
    exact ⟨_, _, rfl, (rfl : testShift _ _ _ _ _ _ s = whenCond _ s _)⟩
  | armTstReg | armTeqReg | armCmpReg | armCmnReg =>
    exact ⟨_, _, rfl, (rfl : testReg _ _ _ _ _ _ s = whenCond _ s _)⟩
  | armBx | armMul | armMla | armUmull | armUmlal | armSmull | armSmlal | armSwp | armSwpb | armStrh | armLdrh
  | armLdrsb | armLdrsh | armUndefSignedStore | armUndefMulSpace | armMrs | armMsrReg | armMsrImm
  | armUndefControl | armUndefTestImm | armUndefMedia | armStrPre | armStrPost | armLdrPre | armLdrPost
  | armStrbPre | armStrbPost | armLdrbPre | armLdrbPost | armStrt | armLdrt | armStrbt | armLdrbt | armStm
  | armLdm | armB | armBl | armStc | armLdc | armCdp | armMcr | armMrc | armSwi => exact ⟨_, _, rfl, rfl⟩
  | _ => cases harm

/-- An undefined encoding is undefined under its condition, in ARM state, or always, in Thumb state. -/
theorem exec_undefined {i : Instr} {s : State} (hi : isUndefined i = true) (hrun : mayRun i s) :
    exec i s = s.undefinedInstr := by
  unfold exec
  cases i with
  | armUndefSignedStore c | armUndefMulSpace c | armUndefControl c | armUndefTestImm c | armUndefMedia c | armStc c
  | armLdc c | armCdp c | armMcr c | armMrc c => exact whenCond_passed (hrun c rfl) _
  | thumbUndef1011 | thumbUndefCond | thumbUndefBlx => rfl
  | _ => cases hi

end Sys2Proof.Machine

open Sys2Proof.Machine

/-- Settles O1: each word is decoded. -/
theorem specExamplesDecode : Obligations.SpecExamplesDecode := by
  unfold Obligations.SpecExamplesDecode
  decide

/-- Settles O7: each condition is a formula over the flags it names. -/
theorem conditionTable : Obligations.ConditionTable := by
  intro p
  simp [condPassed]

/-- Settles O8: a meaning under a condition that fails is the skip. -/
theorem failedConditionSkips : Obligations.FailedConditionSkips := by
  refine ⟨fun i c s harm hc ht hfail => ?_, fun i harm => ?_, fun _ => rfl⟩
  · obtain ⟨d, f, hd, hexec⟩ := exec_arm_eq_whenCond i s harm
    obtain rfl : d = c := Option.some.inj (hd.symm.trans hc)
    rw [hexec, whenCond_failed hfail, State.instrBytes, ht]
    rfl
  · obtain ⟨c, -, hc, -⟩ := exec_arm_eq_whenCond i State.reset harm
    rw [hc]
    rfl

/-- Settles O34: under the Nop policy the undefined instruction is the skip. -/
theorem undefinedIsNop : Obligations.UndefinedIsNop := by
  intro i s hi hrun hnop
  rw [exec_undefined hi hrun, State.undefinedInstr, hnop, skip_goes]
end

section
/-! The shifts bit by bit (30_encoding.md R206, R207). -/

open Sys2Proof

namespace Sys2Proof.Machine

section
variable (m : Word) (n : Nat) {k : Nat} (hk : k < 32)
include hk

theorem getLsbD_lsl : (m <<< n).getLsbD k = (decide (n ≤ k) && m.getLsbD (k - n)) := by
  rw [BitVec.getLsbD_shiftLeft, decide_eq_true hk, Bool.true_and, ← decide_not]
  simp only [Nat.not_lt]

theorem getLsbD_asr : (m.sshiftRight n).getLsbD k = m.getLsbD (min (k + n) 31) := by
  rw [BitVec.getLsbD_sshiftRight, decide_eq_false (by omega : ¬ 32 ≤ k), Bool.not_false, Bool.true_and]
  split
  · rw [Nat.add_comm, Nat.min_eq_left (by omega)]
  · rw [BitVec.msb_eq_getLsbD_last, Nat.min_eq_right (by omega)]

theorem getLsbD_ror : (m.rotateRight n).getLsbD k = m.getLsbD ((k + n) % 32) := by
  rw [BitVec.getLsbD_rotateRight, decide_eq_true hk, Bool.true_and, Bool.cond_decide]
  split <;> (congr 1; omega)

theorem getLsbD_fillWord (b : Bool) : (fillWord b).getLsbD k = b := by
  cases b with
  | false => simp [fillWord]
  | true =>
    rw [fillWord, if_pos rfl, show (0xFFFFFFFF : Word) = BitVec.allOnes 32 from rfl, BitVec.getLsbD_allOnes,
      decide_eq_true hk]

theorem getLsbD_flagBit (b : Bool) (i : Nat) : (flagBit b i).getLsbD k = (b && decide (i = k)) := by
  cases b with
  | false => simp [flagBit]
  | true => rw [flagBit, if_pos rfl, BitVec.getLsbD_ofNat, Nat.testBit_two_pow, decide_eq_true hk, Bool.true_and]

end

/-! ### Immediate operands -/

theorem immOperand_eq (rot : BitVec 4) (imm : BitVec 8) (c : Bool) :
    (∀ k < 32, (immOperand rot imm c).value.getLsbD k = imm.getLsbD ((k + 2 * rot.toNat) % 32)) ∧
    (immOperand rot imm c).carry = if rot = 0 then c else (immOperand rot imm c).value.getLsbD 31 := by
  refine ⟨fun k hk => ?_, rfl⟩
  rw [immOperand, getLsbD_ror _ _ hk, BitVec.getLsbD_setWidth, decide_eq_true (Nat.mod_lt _ (by decide)), Bool.true_and]

/-! ### Shifts by the bottom byte of a register -/

section
variable (m amount : Word) (c : Bool) {n : Nat} (hn : amount.toNat % 256 = n)
include hn

theorem regShift_zero (h : n = 0) (sh : ShiftType) : regShift sh m amount c = { value := m, carry := c } := by
  simp only [regShift, hn, if_pos h]

theorem regShift_lsl (h : n ≠ 0) :
    (∀ k < 32, (regShift .lsl m amount c).value.getLsbD k = (decide (n ≤ k) && m.getLsbD (k - n))) ∧
      (regShift .lsl m amount c).carry = (decide (n ≤ 32) && m.getLsbD (32 - n)) := by
  simp only [regShift, hn, if_neg h]
  split
  case isTrue hlt => exact ⟨fun k hk => getLsbD_lsl m n hk, by simp [hlt.le]⟩
  case isFalse hge =>
    have hzero (k : Nat) (hk : k < 32) : ¬ n ≤ k := by omega
    split
    case isTrue h32 => exact ⟨fun k hk => by simp [hzero k hk], by simp [h32]⟩
    case isFalse h32 =>
      have hbig : ¬ n ≤ 32 := by omega
      exact ⟨fun k hk => by simp [hzero k hk], by simp [hbig]⟩

theorem regShift_lsr (h : n ≠ 0) :
    (∀ k < 32, (regShift .lsr m amount c).value.getLsbD k = m.getLsbD (k + n)) ∧
      (regShift .lsr m amount c).carry = m.getLsbD (n - 1) := by
  simp only [regShift, hn, if_neg h]
  split
  case isTrue hlt => exact ⟨fun k _ => by rw [BitVec.getLsbD_ushiftRight, Nat.add_comm], rfl⟩
  case isFalse hge =>
    have hzero (k : Nat) : m.getLsbD (k + n) = false := BitVec.getLsbD_of_ge _ _ (by omega)
    split
    case isTrue h32 => exact ⟨fun k hk => by simp [hzero], by rw [h32]⟩
    case isFalse h32 =>
      have hbig : m.getLsbD (n - 1) = false := BitVec.getLsbD_of_ge _ _ (by omega)
      exact ⟨fun k hk => by simp [hzero], hbig.symm⟩

theorem regShift_asr (h : n ≠ 0) :
    (∀ k < 32, (regShift .asr m amount c).value.getLsbD k = m.getLsbD (min (k + n) 31)) ∧
      (regShift .asr m amount c).carry = m.getLsbD (min (n - 1) 31) := by
  simp only [regShift, hn, if_neg h]
  split
  case isTrue hlt => exact ⟨fun k hk => getLsbD_asr m n hk, by rw [Nat.min_eq_left (by omega)]⟩
  case isFalse hge =>
    exact ⟨fun k hk => by rw [getLsbD_fillWord hk, Nat.min_eq_right (by omega)], by rw [Nat.min_eq_right (by omega)]⟩

theorem regShift_ror (h : n ≠ 0) :
    (∀ k < 32, (regShift .ror m amount c).value.getLsbD k = m.getLsbD ((k + n) % 32)) ∧
      (regShift .ror m amount c).carry = m.getLsbD ((n - 1) % 32) := by
  simp only [regShift, hn, if_neg h]
  split
  case isTrue h0 =>
    refine ⟨fun k hk => ?_, ?_⟩
    · rw [show (k + n) % 32 = k by omega]
    · rw [show (n - 1) % 32 = 31 by omega]
  case isFalse h0 =>
    refine ⟨fun k hk => ?_, ?_⟩
    · rw [getLsbD_ror _ _ hk, Nat.add_mod_mod]
    · rw [show (n - 1) % 32 = n % 32 - 1 by omega]

end

/-! ### Shifts by an immediate amount -/

section
variable (m : Word) (amt : BitVec 5) (c : Bool)

/-- An amount other than 0 shifts as the same amount in a register. -/
theorem immShift_eq_regShift (sh : ShiftType) (h : amt.toNat ≠ 0) :
    immShift sh m amt c = regShift sh m (amt.setWidth 32) c := by
  have hlt : amt.toNat < 32 := amt.isLt
  have h256 : amt.toNat % 256 = amt.toNat := Nat.mod_eq_of_lt (by omega)
  have h32 : amt.toNat % 32 = amt.toNat := Nat.mod_eq_of_lt hlt
  cases sh <;> simp [immShift, regShift, h, h256, h32, hlt]

/-- LSR #0 and ASR #0 shift by 32. -/
theorem immShift_zero_eq_regShift (sh : ShiftType) (h : sh = .lsr ∨ sh = .asr) :
    immShift sh m 0 c = regShift sh m 32 c := by
  obtain rfl | rfl := h <;> rfl

/-- RRX: one place to the right through C. -/
theorem immShift_rrx :
    (∀ k < 32, (immShift .ror m 0 c).value.getLsbD k = if k = 31 then c else m.getLsbD (k + 1)) ∧
      (immShift .ror m 0 c).carry = m.getLsbD 0 := by
  refine ⟨fun k hk => ?_, rfl⟩
  rw [show (immShift .ror m 0 c).value = flagBit c 31 ||| (m >>> 1) from rfl, BitVec.getLsbD_or, getLsbD_flagBit hk,
    BitVec.getLsbD_ushiftRight, Nat.add_comm 1 k]
  split
  case isTrue h31 => simp [h31]
  case isFalse h31 => simp [Ne.symm h31]

end

end Sys2Proof.Machine

open Sys2Proof.Machine

/-- Settles O11, one shift type at a time. -/
theorem registerShift : Obligations.RegisterShift := fun m amount c =>
  ⟨regShift_zero m amount c rfl, fun h => ⟨regShift_lsl m amount c rfl h, regShift_lsr m amount c rfl h,
    regShift_asr m amount c rfl h, regShift_ror m amount c rfl h⟩⟩

/-- Settles O10: an immediate amount shifts as one in a register, but 0 does so as 32 for LSR and ASR, as nothing for
LSL and as RRX for ROR. -/
theorem shifterOperand : Obligations.ShifterOperand := by
  refine ⟨immOperand_eq, fun m amt c => ?_⟩
  dsimp only
  by_cases h : amt.toNat = 0
  · obtain rfl : amt = 0 := BitVec.eq_of_toNat_eq h
    have hlsr := regShift_lsr m 32 c (n := 32) rfl (by decide)
    have hasr := regShift_asr m 32 c (n := 32) rfl (by decide)
    rw [← immShift_zero_eq_regShift m c _ (.inl rfl)] at hlsr
    rw [← immShift_zero_eq_regShift m c _ (.inr rfl)] at hasr
    exact ⟨⟨fun k _ => by simp [immShift], rfl⟩, hlsr, hasr, immShift_rrx m c⟩
  · have hlt : amt.toNat < 32 := amt.isLt
    have hamt : (amt.setWidth 32).toNat % 256 = amt.toNat := by simp; omega
    have hmod : (amt.toNat - 1) % 32 = amt.toNat - 1 := by omega
    have hmin : min (amt.toNat - 1) 31 = amt.toNat - 1 := by omega
    have hlsl := regShift_lsl m _ c hamt h
    have hlsr := regShift_lsr m _ c hamt h
    have hasr := regShift_asr m _ c hamt h
    have hror := regShift_ror m _ c hamt h
    simp only [immShift_eq_regShift m amt c _ h, if_neg h, if_pos h]
    simp only [hlt.le, hmod, hmin, decide_true, Bool.true_and] at hlsl hasr hror
    exact ⟨hlsl, hlsr, hasr, hror⟩
end

section
/-! ARM data processing (40_arm_dataproc.md R300, R301): the 48 instructions have two meanings, a write and a test. -/

open Sys2Proof

namespace Sys2Proof.Machine

section
variable (op : AluOp) {cond : Cond} (sets : Bool) (rn rd : Reg) (f : DpForm) {s : State}

/-- An operation that writes is one meaning on the operands of its form; MOV and MVN do not look at Rn. -/
theorem exec_dpInstr_write (hop : op.isTest = false) (hcond : condPassed cond s.cpsr = true) :
    exec (dpInstr op cond sets rn rd f) s =
      dpWrite op sets rd (dpFirst s rn f) (dpSecond s f) (s.charge (s.sc + dpExtra f)) := by
  refine Eq.trans ?_ (whenCond_passed hcond fun s =>
    dpWrite op sets rd (dpFirst s rn f) (dpSecond s f) (s.charge (s.sc + dpExtra f)))
  cases op with
  | tst | teq | cmp | cmn => cases hop
  | and | eor | sub | rsb | add | adc | sbc | rsc | orr | mov | bic | mvn => cases f <;> rfl

/-- A test has neither S nor Rd. -/
theorem exec_dpInstr_test (hop : op.isTest = true) (hcond : condPassed cond s.cpsr = true) :
    exec (dpInstr op cond sets rn rd f) s =
      dpTest op (dpFirst s rn f) (dpSecond s f) (s.charge (s.sc + dpExtra f)) := by
  refine Eq.trans ?_ (whenCond_passed hcond fun s =>
    dpTest op (dpFirst s rn f) (dpSecond s f) (s.charge (s.sc + dpExtra f)))
  cases op with
  | tst | teq | cmp | cmn => cases f <;> rfl
  | and | eor | sub | rsb | add | adc | sbc | rsc | orr | mov | bic | mvn => cases hop

end

/-- In ARM state an instruction is four bytes (R36). -/
theorem instrBytes_arm {s : State} (h : s.cpsr.t = false) : s.instrBytes = 4 := by
  rw [State.instrBytes, h]
  rfl

/-- A branch after n cycles. -/
theorem branchTo_charge (s : State) (n : Nat) (v : Word) :
    (s.charge n).branchTo v = s.goes (alignPc s.cpsr.t v) (n + s.refillAt (alignPc s.cpsr.t v)) :=
  (branchTo_goes (s.charge n) v).trans (goes_charge s _ n _)

/-- In ARM state its target is word-aligned (R35). -/
theorem branchTo_charge_arm {s : State} (h : s.cpsr.t = false) (n : Nat) (v : Word) :
    (s.charge n).branchTo v = s.goes (v &&& 0xFFFFFFFC) (n + s.refillAt (v &&& 0xFFFFFFFC)) := by
  rw [branchTo_charge, h]
  rfl

/-! ### A PSR restore, case by case (R41 to R43) -/

section
variable {s : State} {p : Psr}

theorem psrRestore_none (h : s.spsrOf s.cpsr.m = none) : s.psrRestore = .next s := by rw [psrRestore_eq, h]

theorem psrRestore_legal (h : s.spsrOf s.cpsr.m = some p) (hp : legalMode p.m = true) :
    s.psrRestore = .next { s with cpsr := p } := by
  simp only [psrRestore_eq, h, if_pos hp]

theorem psrRestore_illegal (h : s.spsrOf s.cpsr.m = some p) (hp : legalMode p.m = false) :
    s.psrRestore = .refused .invalidMode := by
  simp only [psrRestore_eq, h, hp, Bool.false_eq_true, if_false]

end

end Sys2Proof.Machine

open Sys2Proof.Machine

/-- Settles O14: a write of one of r0 to r14 in ARM state, after the form's cycles. -/
theorem dataProcessingWritesRegister : Obligations.DataProcessingWritesRegister := by
  intro op cond sets rn rd f s hop ht hcond hrd
  dsimp only
  rw [exec_dpInstr_write op sets rn rd f hop hcond, dpWrite_register hrd, withReg_charge, goes_charge,
    instrBytes_arm (s := s.charge _) ht]
  rfl

/-- Settles O15: a write of r15 is a branch, under S after the restore of a saved mode that is one. -/
theorem dataProcessingWritesPc : Obligations.DataProcessingWritesPc := by
  intro op cond sets rn f s hop ht hcond
  dsimp only
  rw [exec_dpInstr_write op sets rn 15 f hop hcond, dpWrite_pc]
  refine ⟨?_, ?_, ?_, ?_⟩
  · rintro rfl
    exact congrArg Host.Outcome.next (branchTo_charge_arm ht _ _)
  · rintro rfl hnone
    rw [if_pos rfl, psrRestore_none (s := s.charge _) hnone]
    exact congrArg Host.Outcome.next (branchTo_charge_arm ht _ _)
  · rintro rfl p hp hlegal
    rw [if_pos rfl, psrRestore_legal (s := s.charge _) hp hlegal]
    exact congrArg Host.Outcome.next (branchTo_charge { s with cpsr := p } _ _)
  · rintro rfl p hp hillegal
    rw [if_pos rfl, psrRestore_illegal (s := s.charge _) hp hillegal]
    rfl

/-- Settles O16: a test in ARM state, after the form's cycles. -/
theorem testsWriteOnlyFlags : Obligations.TestsWriteOnlyFlags := by
  intro op cond sets rn rd f s hop ht hcond
  dsimp only
  rw [exec_dpInstr_test op sets rn rd f hop hcond, dpTest_eq, goes_charge, instrBytes_arm (s := s.charge _) ht]
  rfl
end

section
/-! Data processing in integers (40_arm_dataproc.md R302 to R318): results are exact modulo 2^32, C is a carry out or no
borrow, and V a signed result out of range. -/

open Sys2Proof

namespace Sys2Proof.Machine

section
variable (a b : Word) (cin : Bool)

theorem bitNat_cast : (bitNat cin : Int) = if cin then 1 else 0 := by cases cin <;> rfl

/-- The borrow in is NOT C (R302). -/
theorem bitNat_not : (bitNat (!cin) : Int) = 1 - bitNat cin := by cases cin <;> rfl

theorem bitNat_le_one : bitNat cin ≤ 1 := by cases cin <;> decide

/-! ### Results, from unsigned and from signed operands -/

theorem addWith_eq_ofInt : addWith a b cin = BitVec.ofInt 32 (a.toNat + b.toNat + bitNat cin) := by
  simp only [addWith, BitVec.ofInt_add, BitVec.ofInt_natCast, BitVec.ofNat_toNat, BitVec.setWidth_eq]

theorem subWith_eq_ofInt : subWith a b cin = BitVec.ofInt 32 (a.toNat - b.toNat - bitNat cin) := by
  simp only [subWith, sub_eq_add_neg, BitVec.ofInt_add, BitVec.ofInt_neg, BitVec.ofInt_natCast, BitVec.ofNat_toNat,
    BitVec.setWidth_eq]

theorem addWith_eq_ofInt_signed : addWith a b cin = BitVec.ofInt 32 (a.toInt + b.toInt + bitNat cin) := by
  simp only [addWith, BitVec.ofInt_add, BitVec.ofInt_natCast, BitVec.ofInt_toInt]

theorem subWith_eq_ofInt_signed : subWith a b cin = BitVec.ofInt 32 (a.toInt - b.toInt - bitNat cin) := by
  simp only [subWith, sub_eq_add_neg, BitVec.ofInt_add, BitVec.ofInt_neg, BitVec.ofInt_natCast, BitVec.ofInt_toInt]

/-! ### Flags -/

/-- The sign bit says that the signed value is below 0. -/
theorem signBit_eq : a.getLsbD 31 = decide (a.toInt < 0) :=
  (BitVec.msb_eq_getLsbD_last a).symm.trans BitVec.msb_eq_toInt

theorem signed_range : -2 ^ 31 ≤ a.toInt ∧ a.toInt < 2 ^ 31 := ⟨BitVec.le_toInt a, BitVec.toInt_lt⟩

/-- A word's signed value is an integer's up to a multiple of 2^32. -/
theorem toInt_eq_of_ofInt {v : Int} (h : a = BitVec.ofInt 32 v) : ∃ k, a.toInt = v + 2 ^ 32 * k := by
  obtain ⟨k, hk⟩ := Int.dvd_bmod_sub_self (x := v) (m := 2 ^ 32)
  refine ⟨k, ?_⟩
  rw [h, BitVec.toInt_ofInt]
  omega

variable (p : Psr)

theorem flagsAdd_carry_iff : (flagsAdd p a b cin).c = true ↔ 2 ^ 32 ≤ (a.toNat + b.toNat + bitNat cin : Int) := by
  simp only [flagsAdd, decide_eq_true_iff]
  omega

theorem flagsSub_carry_iff : (flagsSub p a b cin).c = true ↔ (b.toNat + bitNat cin : Int) ≤ a.toNat := by
  simp only [flagsSub, decide_eq_true_iff]
  omega

/-- Operands of one sign and a sum of the other: the exact sum is 2^32 off the word (R302). -/
theorem flagsAdd_overflow_iff :
    let v : Int := a.toInt + b.toInt + bitNat cin
    (flagsAdd p a b cin).v = true ↔ v < -(2 ^ 31) ∨ 2 ^ 31 ≤ v := by
  obtain ⟨k, hk⟩ := toInt_eq_of_ofInt _ (addWith_eq_ofInt_signed a b cin)
  have ha := signed_range a
  have hb := signed_range b
  have hr := signed_range (addWith a b cin)
  have hc := bitNat_le_one cin
  simp only [flagsAdd, signBit_eq, Bool.and_eq_true, beq_iff_eq, bne_iff_ne, ne_eq, decide_eq_decide]
  omega

/-- Operands of two signs and a difference of the second's: the exact difference is 2^32 off the word (R302). -/
theorem flagsSub_overflow_iff :
    let v : Int := a.toInt - b.toInt - bitNat cin
    (flagsSub p a b cin).v = true ↔ v < -(2 ^ 31) ∨ 2 ^ 31 ≤ v := by
  obtain ⟨k, hk⟩ := toInt_eq_of_ofInt _ (subWith_eq_ofInt_signed a b cin)
  have ha := signed_range a
  have hb := signed_range b
  have hr := signed_range (subWith a b cin)
  have hc := bitNat_le_one cin
  simp only [flagsSub, signBit_eq, Bool.and_eq_true, bne_iff_ne, ne_eq, decide_eq_decide]
  omega

theorem flagsAdd_without_carry_in :
    ((flagsAdd p a b false).c = true ↔ 2 ^ 32 ≤ a.toNat + b.toNat) ∧
    ((flagsAdd p a b false).v = true ↔ a.toInt + b.toInt < -(2 ^ 31) ∨ 2 ^ 31 ≤ a.toInt + b.toInt) :=
  ⟨decide_eq_true_iff, by simpa [bitNat] using flagsAdd_overflow_iff a b false p⟩

theorem flagsSub_without_borrow_in :
    ((flagsSub p a b false).c = true ↔ b.toNat ≤ a.toNat) ∧
    ((flagsSub p a b false).v = true ↔ a.toInt - b.toInt < -(2 ^ 31) ∨ 2 ^ 31 ≤ a.toInt - b.toInt) :=
  ⟨decide_eq_true_iff, by simpa [bitNat] using flagsSub_overflow_iff a b false p⟩

variable (op : AluOp) (sc : Bool)

theorem aluFlags_n : (aluFlags op a b sc p).n = (aluResult op a b p.c).getLsbD 31 := by cases op <;> rfl

theorem aluFlags_z : (aluFlags op a b sc p).z = decide (aluResult op a b p.c = 0) := by cases op <;> rfl

end

end Sys2Proof.Machine

open Sys2Proof.Machine

/-- Settles O12: arithmetic is done in integers and reduced, logic bit by bit. -/
theorem aluResults : Obligations.AluResults := by
  intro a b c
  dsimp only
  refine ⟨?_, fun k hk => ?_⟩
  · simp only [aluResult, addWith_eq_ofInt, subWith_eq_ofInt, bitNat_not]
    simp [bitNat_cast]
  · simp [aluResult, hk]

/-- Settles O13: each operation has the flags of a logical operation, an addition or a subtraction. -/
theorem aluFlagRules : Obligations.AluFlagRules := by
  intro op a b sc p
  dsimp only
  obtain ⟨hi, hf, ht, hm⟩ := aluFlags_allowed op a b sc p
  have hz : (aluFlags op a b sc p).z = true ↔ aluResult op a b p.c = 0 := by rw [aluFlags_z, decide_eq_true_iff]
  refine ⟨⟨aluFlags_n a b p op sc, hz, hi, hf, ht, hm⟩, fun hop => ?_, ?_, ?_, ?_, ?_, ?_, ?_⟩
  · cases op with
    | and | eor | tst | teq | orr | mov | bic | mvn => exact ⟨rfl, rfl⟩
    | sub | rsb | add | adc | sbc | rsc | cmp | cmn => cases hop
  · rintro (rfl | rfl)
    all_goals exact flagsAdd_without_carry_in a b p
  · rintro rfl
    rw [← bitNat_cast]
    exact ⟨flagsAdd_carry_iff a b p.c p, flagsAdd_overflow_iff a b p.c p⟩
  · rintro (rfl | rfl)
    all_goals exact flagsSub_without_borrow_in a b p
  · rintro rfl
    rw [← bitNat_cast, ← bitNat_not]
    exact ⟨flagsSub_carry_iff a b (!p.c) p, flagsSub_overflow_iff a b (!p.c) p⟩
  · rintro rfl
    exact flagsSub_without_borrow_in b a p
  · rintro rfl
    rw [← bitNat_cast, ← bitNat_not]
    exact ⟨flagsSub_carry_iff b a (!p.c) p, flagsSub_overflow_iff b a (!p.c) p⟩
end

section
/-! Status words (10_state.md R37) and the instructions that move them (40_arm_dataproc.md R319, R320). -/

open Sys2Proof

namespace Sys2Proof.Machine

/-! ### The layout of a status word -/

theorem getLsbD_psrWord (p : Psr) {k : Nat} (hk : k < 32) :
    (psrWord p).getLsbD k =
      ((p.n && decide (31 = k)) || (p.z && decide (30 = k)) || (p.c && decide (29 = k)) || (p.v && decide (28 = k)) ||
        (p.i && decide (7 = k)) || (p.f && decide (6 = k)) || (p.t && decide (5 = k)) || p.m.getLsbD k) := by
  simp only [psrWord, BitVec.getLsbD_or, getLsbD_flagBit hk, BitVec.getLsbD_setWidth, hk, decide_true, Bool.true_and]

/-- A flag's bit is in no other field. -/
theorem psrWord_flags (p : Psr) :
    (psrWord p).getLsbD 31 = p.n ∧ (psrWord p).getLsbD 30 = p.z ∧ (psrWord p).getLsbD 29 = p.c ∧
    (psrWord p).getLsbD 28 = p.v ∧ (psrWord p).getLsbD 7 = p.i ∧ (psrWord p).getLsbD 6 = p.f ∧
    (psrWord p).getLsbD 5 = p.t := by
  have hm (k : Nat) (hk : 5 ≤ k) : p.m.getLsbD k = false := BitVec.getLsbD_of_ge p.m k hk
  simp (disch := decide) only [getLsbD_psrWord, hm]
  simp

theorem psrWord_mode (p : Psr) : (psrWord p).setWidth 5 = p.m := by
  refine BitVec.eq_of_getLsbD_eq fun k hk => ?_
  have hflag (j : Nat) (hj : 5 ≤ j) : ¬ j = k := by omega
  rw [BitVec.getLsbD_setWidth, getLsbD_psrWord p (by omega)]
  simp [hk, hflag]

theorem psrWord_unused (p : Psr) : (psrWord p).extractLsb' 8 20 = 0 := by
  refine BitVec.eq_of_getLsbD_eq fun k hk => ?_
  have hm : p.m.getLsbD (8 + k) = false := BitVec.getLsbD_of_ge p.m _ (by omega)
  have hlow (j : Nat) (hj : j < 8) : ¬ j = 8 + k := by omega
  have hhigh (j : Nat) (hj : 28 ≤ j) : ¬ j = 8 + k := by omega
  rw [BitVec.getLsbD_extractLsb', getLsbD_psrWord p (by omega)]
  simp [hm, hlow, hhigh]

theorem psrOfWord_mode (w : Word) : (psrOfWord w).m = w.setWidth 5 := BitVec.ofNat_toNat 5 w

theorem psrOfWord_psrWord (p : Psr) : psrOfWord (psrWord p) = p := by
  obtain ⟨hn, hz, hc, hv, hi, hf, ht⟩ := psrWord_flags p
  obtain ⟨n, z, c, v, i, f, t, m⟩ := p
  exact Psr.mk.injEq .. |>.mpr ⟨hn, hz, hc, hv, hi, hf, ht, (psrOfWord_mode _).trans (psrWord_mode _)⟩

/-- Each bit of a word is in one field, or, at 27:8, in none. -/
theorem psrWord_psrOfWord (w : Word) : psrWord (psrOfWord w) = w &&& 0xF00000FF := by
  refine BitVec.eq_of_getLsbD_eq fun k hk => ?_
  rw [getLsbD_psrWord _ hk, psrOfWord_mode]
  simp only [psrOfWord]
  interval_cases k <;> simp

/-! ### MRS and MSR -/

theorem exec_mrs {cond : Cond} {r : Bool} {rd : Reg} {s : State} (hcond : condPassed cond s.cpsr = true) :
    exec (.armMrs cond r rd) s = .next ((s.charge s.sc).writeResult rd
      (psrWord (if r then (s.spsrOf s.cpsr.m).getD s.cpsr else s.cpsr))) :=
  whenCond_passed hcond fun s => .next ((s.charge s.sc).writeResult rd
    (psrWord (if r then (s.spsrOf s.cpsr.m).getD s.cpsr else s.cpsr)))

theorem getLsbD_maskedWord (old new mask : Word) {k : Nat} (hk : k < 32) :
    (maskedWord old new mask).getLsbD k = if mask.getLsbD k then new.getLsbD k else old.getLsbD k := by
  simp only [maskedWord, BitVec.getLsbD_or, BitVec.getLsbD_and, BitVec.getLsbD_not, hk, decide_true, Bool.true_and]
  cases mask.getLsbD k <;> simp

theorem and_all_mode_bits (m : BitVec 5) : m &&& 31#5 = m := BitVec.and_allOnes

/-- A masked write of a status word, field by field. -/
theorem psrOfWord_maskedWord (p : Psr) (v mask : Word) :
    psrOfWord (maskedWord (psrWord p) v mask) =
      { n := if mask.getLsbD 31 then v.getLsbD 31 else p.n
        z := if mask.getLsbD 30 then v.getLsbD 30 else p.z
        c := if mask.getLsbD 29 then v.getLsbD 29 else p.c
        v := if mask.getLsbD 28 then v.getLsbD 28 else p.v
        i := if mask.getLsbD 7 then v.getLsbD 7 else p.i
        f := if mask.getLsbD 6 then v.getLsbD 6 else p.f
        t := if mask.getLsbD 5 then v.getLsbD 5 else p.t
        m := p.m &&& ~~~mask.setWidth 5 ||| v.setWidth 5 &&& mask.setWidth 5 } := by
  obtain ⟨hn, hz, hc, hv, hi, hf, ht⟩ := psrWord_flags p
  have hm : (maskedWord (psrWord p) v mask).setWidth 5 =
      p.m &&& ~~~mask.setWidth 5 ||| v.setWidth 5 &&& mask.setWidth 5 := by
    rw [maskedWord, BitVec.setWidth_or, BitVec.setWidth_and, BitVec.setWidth_and, BitVec.setWidth_not (by decide),
      psrWord_mode]
  simp (disch := decide) only [psrOfWord, BitVec.ofNat_toNat, getLsbD_maskedWord, hn, hz, hc, hv, hi, hf, ht, hm]

/-- The fields MSR merges are those of the bits its mask has, whichever of f and c it writes. -/
theorem msrCpsr_eq_maskedWord (mask : BitVec 4) (p : Psr) (v : Word) :
    msrCpsr mask p (psrOfWord v) = psrOfWord (maskedWord (psrWord p) v (msrCpsrMask p.m mask)) := by
  rw [psrOfWord_maskedWord]
  unfold msrCpsr mergeFlags fieldF fieldC msrCpsrMask
  cases mask.getLsbD 3 <;> cases mask.getLsbD 0 && p.m != modeUsr
  all_goals simp [psrOfWord, and_all_mode_bits]

theorem msrSpsr_eq_maskedWord (mask : BitVec 4) (p : Psr) (v : Word) :
    msrSpsr mask p (psrOfWord v) = psrOfWord (maskedWord (psrWord p) v (msrSpsrMask mask)) := by
  rw [psrOfWord_maskedWord]
  unfold msrSpsr mergeFlags fieldF fieldC msrSpsrMask
  cases mask.getLsbD 3 <;> cases mask.getLsbD 0
  all_goals simp [psrOfWord, and_all_mode_bits]

theorem setSpsr_charge (s : State) (n : Nat) (m : BitVec 5) (p : Psr) :
    (s.charge n).setSpsr m p = (s.setSpsr m p).charge n := by
  unfold State.setSpsr
  (repeat' split) <;> rfl

/-- In ARM state the next instruction is four bytes on (R36). -/
theorem advance_arm {s : State} (h : s.cpsr.t = false) : s.advance = s.goes (s.pc + 4) 0 := by
  rw [advance_goes, instrBytes_arm h]

section
variable (mask : BitVec 4) (v : Word) {s : State} (ht : s.cpsr.t = false)
include ht

/-- To the CPSR: T stays, so the next instruction is four bytes on. -/
theorem msrWrite_cpsr :
    let q := msrCpsr mask s.cpsr (psrOfWord v)
    msrWrite false mask v s =
      if legalMode q.m then .next { s.goes (s.pc + 4) s.sc with cpsr := q } else .refused .invalidMode := by
  have hgo : ((s.chargeCode .seq).setFlags (msrCpsr mask s.cpsr (psrOfWord v))).advance =
      { s.goes (s.pc + 4) s.sc with cpsr := msrCpsr mask s.cpsr (psrOfWord v) } :=
    advance_arm ((msrCpsr_t mask s.cpsr _).trans ht)
  simp only [msrWrite, hgo, Bool.false_eq_true, if_false]

theorem msrWrite_no_spsr (h : s.spsrOf s.cpsr.m = none) : msrWrite true mask v s = .next (s.goes (s.pc + 4) s.sc) := by
  simp only [msrWrite, h, if_true]
  exact congrArg Host.Outcome.next (advance_arm (s := s.chargeCode .seq) ht)

/-- To an SPSR: under field c the mode written is the value's. -/
theorem msrWrite_spsr {p : Psr} (h : s.spsrOf s.cpsr.m = some p) :
    let q := msrSpsr mask p (psrOfWord v)
    msrWrite true mask v s =
      if mask.getLsbD 0 && !legalMode q.m then .refused .invalidMode
      else .next ((s.setSpsr s.cpsr.m q).goes (s.pc + 4) s.sc) := by
  have hmode : (fieldC mask && !legalMode (psrOfWord v).m) =
      (mask.getLsbD 0 && !legalMode (msrSpsr mask p (psrOfWord v)).m) := by
    unfold msrSpsr fieldC
    cases mask.getLsbD 0 <;> rfl
  have hgo (q : Psr) :
      ((s.chargeCode .seq).setSpsr s.cpsr.m q).advance = (s.setSpsr s.cpsr.m q).goes (s.pc + 4) s.sc := by
    rw [show s.chargeCode .seq = s.charge s.sc from rfl, setSpsr_charge, advance_arm (by simpa using ht), goes_charge,
      State.charge_pc, State.setSpsr_pc]
    rfl
  simp only [msrWrite, h, hmode, hgo, if_true]

end

/-- Both forms of MSR write their value. -/
theorem exec_msr {i : Instr} {s : State} {f : MsrForm} (hf : msrOf i s = some f)
    (hcond : condPassed f.cond s.cpsr = true) : exec i s = msrWrite f.spsr f.mask f.value s := by
  cases i with
  | armMsrReg cond r mask rm =>
    cases hf
    exact whenCond_passed hcond fun s => msrWrite r mask (s.readReg rm) s
  | armMsrImm cond r mask rot imm =>
    cases hf
    rw [BitVec.ofNat_toNat]
    exact whenCond_passed hcond fun s => msrWrite r mask (immOperand rot imm s.cpsr.c).value s
  | _ => cases hf

end Sys2Proof.Machine

open Sys2Proof.Machine

/-- Settles O17: the layout of the status word is proved bit by bit, and MRS writes it as any result is written. -/
theorem mrsReadsStatusWord : Obligations.MrsReadsStatusWord := by
  refine ⟨fun cond r rd s ht hcond => ?_, psrOfWord_psrWord, psrWord_psrOfWord, fun p => ?_⟩
  · dsimp only
    rw [exec_mrs hcond]
    refine ⟨fun hrd => ?_, fun hrd => ?_⟩
    · rw [writeResult_eq, if_neg hrd, withReg_charge, goes_charge, instrBytes_arm (s := s.charge _) ht]
      rfl
    · rw [State.writeResult, if_pos hrd, branchTo_charge_arm ht]
  · obtain ⟨hn, hz, hc, hv, hi, hf, ht⟩ := psrWord_flags p
    exact ⟨hn, hz, hc, hv, hi, hf, ht, psrWord_mode p, psrWord_unused p⟩

/-- Settles O18: to the CPSR, to no SPSR and to an SPSR, the fields MSR merges are the bits of its mask. -/
theorem msrWritesMaskedBits : Obligations.MsrWritesMaskedBits := by
  intro i s f hf ht hcond
  dsimp only
  rw [exec_msr hf hcond]
  refine ⟨fun hr => ?_, fun hr hnone => ?_, fun hr p hp => ?_⟩ <;> rw [hr]
  · rw [msrWrite_cpsr f.mask f.value ht, msrCpsr_eq_maskedWord]
  · exact msrWrite_no_spsr f.mask f.value ht hnone
  · rw [msrWrite_spsr f.mask f.value ht hp, msrSpsr_eq_maskedWord]
end

section
/-! The multiplies (41_arm_multiply.md R341 to R348, 44_thumb_alu.md R455): the model's words are the exact integers modulo
2^32 and 2^64, and what it draws for the meaningless flags changes no other part of the next state. -/

open Sys2Proof

namespace Sys2Proof.Machine

/-! ### The status a multiply leaves -/

/-- The state with another status and another count of draws: nothing else differs. -/
def State.withStatus (s : State) (p : Psr) (n : Nat) : State := { s with cpsr := p, freeCount := n }

section
variable {s : State} {p : Psr} (n : Nat)

theorem setReg_withStatus (hm : p.m = s.cpsr.m) (r : Reg) (v : Word) :
    (s.withStatus p n).setReg r v = (s.setReg r v).withStatus p n := by
  rw [setReg_withReg, setReg_withReg, show (s.withStatus p n).cpsr.m = s.cpsr.m from hm]
  unfold State.withReg
  split <;> rfl

theorem advance_withStatus (ht : p.t = s.cpsr.t) : (s.withStatus p n).advance = s.advance.withStatus p n := by
  simp only [State.withStatus, State.advance, State.instrBytes, ht]

theorem branchTo_withStatus (ht : p.t = s.cpsr.t) (v : Word) :
    (s.withStatus p n).branchTo v = (s.branchTo v).withStatus p n := by
  simp only [branchTo_goes, State.withStatus, State.goes, State.refillAt, State.codeWidth, State.instrBytes, ht]

theorem writeResult_withStatus (hm : p.m = s.cpsr.m) (ht : p.t = s.cpsr.t) (r : Reg) (v : Word) :
    (s.withStatus p n).writeResult r v = (s.writeResult r v).withStatus p n := by
  unfold State.writeResult
  split
  · exact branchTo_withStatus n ht v
  · rw [setReg_withStatus n hm, advance_withStatus n (by rw [ht, State.setReg_cpsr])]

end

/-- A meaningless flag is some bit, after some number of draws; under the executable default it is as it was (R347). -/
theorem meaninglessFlag_eq (s : State) (old : Bool) : ∃ (b : Bool) (k : Nat),
    (s.dev.params.mulCarry = .executableDefault → b = old ∧ k = 0) ∧
      s.meaninglessFlag old = (b, s.withStatus s.cpsr (s.freeCount + k)) := by
  unfold State.meaninglessFlag
  cases hc : s.dev.params.mulCarry with
  | draw => exact ⟨_, 1, by simp, rfl⟩
  | executableDefault => exact ⟨old, 0, by simp, rfl⟩

/-- What MUL and MLA leave in the status: without S nothing is drawn and nothing changes. -/
theorem mulFlags_eq (sets : Bool) (res : Word) (s : State) : ∃ (c : Bool) (k : Nat),
    (sets = false → k = 0) ∧ (s.dev.params.mulCarry = .executableDefault → c = s.cpsr.c ∧ k = 0) ∧
      (if sets then s.mulFlags res else s) = s.withStatus
        (if sets then { s.cpsr with n := res.getLsbD 31, z := decide (res = 0), c := c } else s.cpsr)
        (s.freeCount + k) := by
  cases sets with
  | false => exact ⟨s.cpsr.c, 0, by simp, by simp, rfl⟩
  | true =>
    obtain ⟨c, k, hdef, he⟩ := meaninglessFlag_eq s s.cpsr.c
    exact ⟨c, k, by simp, hdef, by simp only [State.mulFlags, he]; rfl⟩

/-- What a long multiply leaves in the status: C is drawn before V. -/
theorem mulLongFlags_eq (sets : Bool) (res : BitVec 64) (s : State) : ∃ (c v : Bool) (k : Nat),
    (sets = false → k = 0) ∧
      (s.dev.params.mulCarry = .executableDefault → c = s.cpsr.c ∧ v = s.cpsr.v ∧ k = 0) ∧
      (if sets then s.mulLongFlags res else s) = s.withStatus
        (if sets then { s.cpsr with n := res.getLsbD 63, z := decide (res = 0), c := c, v := v } else s.cpsr)
        (s.freeCount + k) := by
  cases sets with
  | false => exact ⟨s.cpsr.c, s.cpsr.v, 0, by simp, by simp, rfl⟩
  | true =>
    obtain ⟨c, k, hc, hce⟩ := meaninglessFlag_eq s s.cpsr.c
    obtain ⟨v, j, hv, hve⟩ := meaninglessFlag_eq (s.withStatus s.cpsr (s.freeCount + k)) s.cpsr.v
    refine ⟨c, v, k + j, by simp, fun hdef => ?_, ?_⟩
    · obtain ⟨hc, hk⟩ := hc hdef
      obtain ⟨hv, hj⟩ := hv hdef
      exact ⟨hc, hv, by rw [hk, hj]⟩
    · rw [← Nat.add_assoc]
      simp only [State.mulLongFlags, hce, hve]
      rfl

/-! ### The registers a multiply writes, after its cycles -/

theorem writeResult_charge (s : State) (n : Nat) (rd : Reg) (v : Word) :
    (s.charge n).writeResult rd v =
      if rd = 15 then s.goes (alignPc s.cpsr.t v) (n + s.refillAt (alignPc s.cpsr.t v))
      else (s.withReg s.cpsr.m rd v).goes (s.pc + s.instrBytes) n := by
  rw [writeResult_eq, withReg_charge, goes_charge, goes_charge]
  rfl

/-- A write of a register leaves the refill as it was: its cost looks at the devices and at T alone. -/
theorem refillAt_withReg (s : State) (m : BitVec 5) (r : Reg) (v pc : Word) :
    (s.withReg m r v).refillAt pc = s.refillAt pc := by
  simp only [State.refillAt, State.codeWidth, State.instrBytes, withReg_dev, withReg_cpsr]

theorem extractLsb'_eq_lowWord (p : BitVec 64) : p.extractLsb' 0 32 = lowWord p := rfl

theorem extractLsb'_eq_highWord (p : BitVec 64) : p.extractLsb' 32 32 = highWord p := by
  rw [highWord, ← Nat.shiftRight_eq_div_pow]
  rfl

/-- The flags a long product sets come before its registers. -/
theorem mulLongWrite_flags (sets : Bool) (hi lo : Reg) (res : BitVec 64) (s : State) :
    mulLongWrite sets hi lo res s = mulLongWrite false hi lo res (if sets then s.mulLongFlags res else s) := rfl

/-- The registers and the way on of a long product look at no flag and at no count of draws. -/
theorem mulLongWrite_withStatus {s : State} {p : Psr} (n : Nat) (hm : p.m = s.cpsr.m) (ht : p.t = s.cpsr.t)
    (hi lo : Reg) (res : BitVec 64) :
    mulLongWrite false hi lo res (s.withStatus p n) =
      andThen (mulLongWrite false hi lo res s) fun t => .next (t.withStatus p n) := by
  have hregs (vl vh : Word) : ((s.withStatus p n).setReg lo vl).setReg hi vh =
      ((s.setReg lo vl).setReg hi vh).withStatus p n := by
    rw [setReg_withStatus n hm, setReg_withStatus n (by rw [hm, State.setReg_cpsr])]
  simp only [mulLongWrite, hregs, Bool.false_eq_true, if_false]
  have ht' (vl vh : Word) : p.t = ((s.setReg lo vl).setReg hi vh).cpsr.t := by
    rw [ht, State.setReg_cpsr, State.setReg_cpsr]
  rw [branchTo_withStatus n (ht' _ _), branchTo_withStatus n (ht' _ _), advance_withStatus n (ht' _ _)]
  (repeat' split) <;> rfl

/-- A long product in ARM state, without S: RdHi is written last, and the later write of r15 is the branch (R348). -/
theorem mulLongWrite_charge {s : State} (ht : s.cpsr.t = false) (hi lo : Reg) (res : BitVec 64) (n : Nat) :
    let u := (s.withReg s.cpsr.m lo (lowWord res)).withReg s.cpsr.m hi (highWord res)
    let target := (if hi = 15 then highWord res else lowWord res) &&& 0xFFFFFFFC
    mulLongWrite false hi lo res (s.charge n) = .next
      (if hi = 15 ∨ lo = 15 then u.goes target (n + s.refillAt target) else u.goes (s.pc + 4) n) := by
  intro u target
  have hut : u.cpsr.t = false := by rw [withReg_cpsr, withReg_cpsr, ht]
  have hregs : ((s.charge n).setReg lo (lowWord res)).setReg hi (highWord res) = u.charge n := by
    rw [setReg_withReg, setReg_withReg, withReg_charge, State.charge_cpsr, State.charge_cpsr, withReg_cpsr,
      withReg_charge]
  have hbranch (v : Word) :
      (u.charge n).branchTo v = u.goes (v &&& 0xFFFFFFFC) (n + s.refillAt (v &&& 0xFFFFFFFC)) := by
    rw [branchTo_charge_arm hut, refillAt_withReg, refillAt_withReg]
  have hnext : (u.charge n).advance = u.goes (s.pc + 4) n := by
    rw [advance_arm (s := u.charge n) hut, goes_charge, State.charge_pc, withReg_pc, withReg_pc, Nat.add_zero]
  simp only [mulLongWrite, extractLsb'_eq_lowWord, extractLsb'_eq_highWord, hregs, hbranch, hnext, Bool.false_eq_true,
    if_false]
  by_cases hhi : hi = 15
  · simp only [target, hhi, if_true, true_or]
  · by_cases hlo : lo = 15 <;> simp only [target, hhi, hlo, if_true, if_false, or_true, or_self]

/-! ### Exact products -/

theorem mul_eq_ofNat (a b : Word) : a * b = BitVec.ofNat 32 (a.toNat * b.toNat) := by
  rw [BitVec.ofNat_mul, BitVec.ofNat_toNat, BitVec.ofNat_toNat, BitVec.setWidth_eq, BitVec.setWidth_eq]

theorem mul_add_eq_ofNat (a b c : Word) : a * b + c = BitVec.ofNat 32 (a.toNat * b.toNat + c.toNat) := by
  rw [BitVec.ofNat_add, ← mul_eq_ofNat, BitVec.ofNat_toNat, BitVec.setWidth_eq]

/-- RdHi : RdLo as 64 bits is the accumulator. -/
theorem append_eq_accumulator (s : State) (hi lo : Reg) :
    s.readReg hi ++ s.readReg lo = BitVec.ofNat 64 (accumulator s hi lo) := by
  rw [accumulator, ← Nat.shiftLeft_eq, Nat.shiftLeft_add_eq_or_of_lt (s.readReg lo).isLt, ← BitVec.toNat_append,
    BitVec.ofNat_toNat]
  exact (BitVec.setWidth_eq _).symm

/-! ### One meaning for each width -/

/-- MUL, MLA and Thumb MUL write the exact result modulo 2^32 after their cycles. -/
theorem exec_mul {i : Instr} {s : State} {f : MulForm} (hf : mulOf i s = some f)
    (hcond : condPassed f.cond s.cpsr = true) :
    exec i s = mulWrite f.sets f.rd f.res (s.charge (s.sc + f.cycles)) := by
  rw [← charge_charge]
  suffices h : exec i s = if condPassed f.cond s.cpsr then
      mulWrite f.sets f.rd f.res ((s.charge s.sc).charge f.cycles) else .next s.skip by rw [h, if_pos hcond]
  cases i with
  | armMul | thumbMul =>
    cases hf
    rw [← mul_eq_ofNat]
    rfl
  | armMla =>
    cases hf
    rw [← mul_add_eq_ofNat]
    rfl
  | _ => cases hf

/-- The long multiplies write the exact result modulo 2^64 after their cycles. -/
theorem exec_mulLong {i : Instr} {s : State} {f : LongMulForm} (hf : longMulOf i s = some f)
    (hcond : condPassed f.cond s.cpsr = true) :
    exec i s = mulLongWrite f.sets f.hi f.lo f.res (s.charge (s.sc + f.cycles)) := by
  rw [← charge_charge]
  suffices h : exec i s = if condPassed f.cond s.cpsr then
      mulLongWrite f.sets f.hi f.lo f.res ((s.charge s.sc).charge f.cycles) else .next s.skip by rw [h, if_pos hcond]
  cases i with
  | armUmull | armSmull =>
    cases hf
    rfl
  | armUmlal =>
    cases hf
    rw [BitVec.ofNat_add, ← append_eq_accumulator]
    rfl
  | armSmlal =>
    cases hf
    rw [BitVec.ofInt_add, BitVec.ofInt_natCast, ← append_eq_accumulator]
    rfl
  | _ => cases hf

end Sys2Proof.Machine

open Sys2Proof.Machine

/-- Settles O19: the product is written as any result is, in a state whose status the multiply has left. -/
theorem multiplyResult : Obligations.MultiplyResult := by
  intro i s f hf hcond
  obtain ⟨c, k, hsets, hdef, he⟩ := mulFlags_eq f.sets f.res (s.charge (s.sc + f.cycles))
  refine ⟨c, k, hsets, hdef, ?_⟩
  rw [exec_mul hf hcond, mulWrite, he, writeResult_withStatus _ (by cases f.sets <;> rfl) (by cases f.sets <;> rfl),
    writeResult_charge]
  exact congrArg Host.Outcome.next (apply_ite (State.withStatus · _ _) _ _ _)

/-- Settles O20: RdLo and RdHi are written and the way on taken in a state whose status the multiply has left. -/
theorem longMultiplyResult : Obligations.LongMultiplyResult := by
  intro i s f hf ht hcond
  obtain ⟨c, v, k, hsets, hdef, he⟩ := mulLongFlags_eq f.sets f.res (s.charge (s.sc + f.cycles))
  refine ⟨c, v, k, hsets, hdef, ?_⟩
  rw [exec_mulLong hf hcond, mulLongWrite_flags, he,
    mulLongWrite_withStatus _ (by cases f.sets <;> rfl) (by cases f.sets <;> rfl), mulLongWrite_charge ht, andThen_next]
  exact congrArg Host.Outcome.next (apply_ite (State.withStatus · _ _) _ _ _)
end

section
/-! What an instruction leaves of memory: the bytes outside the accesses of its stores
(20_memory.md R101, R109 to R111). -/

open Sys2Proof

namespace Sys2Proof.Machine

/-- The bytes of a halfword or word store are those of the aligned access, whatever the BG mode. -/
theorem storedKeys_wide (d e : Devices) {w : Width} (hw : w ≠ .byte) (a : Word) :
    storedKeys d w a = storedKeys e w a := by
  cases w with
  | byte => exact absurd rfl hw
  | half | word => rfl

/-- Halfword and word stores leave every byte outside their accesses. -/
theorem Writes.cellRead_other {l : List (Width × Word)} {d e : Devices} (h : Writes l d e) (hw : ∀ x ∈ l, x.1 ≠ .byte)
    {k : Nat} (hk : ∀ x ∈ l, k ∉ storedKeys d x.1 x.2) : cellRead e.mem k = cellRead d.mem k := by
  induction h with
  | stop => rfl
  | @write l d e w a v _ ih =>
    obtain ⟨-, hwl⟩ := List.forall_mem_cons.mp hw
    obtain ⟨hka, hkl⟩ := List.forall_mem_cons.mp hk
    refine (ih hwl fun x hx => ?_).trans (busWrite_other d w a v hka)
    rw [storedKeys_wide _ d (hwl x hx)]
    exact hkl x hx

/-- Stores of which at most the first is of a byte change nothing where there are none, and leave every byte outside
their accesses. -/
theorem Writes.frame {l : List (Width × Word)} {d e : Devices} (h : Writes l d e) (hw : ∀ x ∈ l.tail, x.1 ≠ .byte) :
    (l = [] → e = d) ∧
      (∀ k, (∀ x ∈ l, k ∉ storedKeys d x.1 x.2) → cellRead e.mem k = cellRead d.mem k) := by
  cases h with
  | stop => exact ⟨fun _ => rfl, fun _ _ => rfl⟩
  | @write l _ _ w a v h =>
    refine ⟨nofun, fun k hk => ?_⟩
    obtain ⟨hka, hkl⟩ := List.forall_mem_cons.mp hk
    refine (h.cellRead_other hw fun x hx => ?_).trans (busWrite_other d w a v hka)
    rw [storedKeys_wide _ d (hw x hx)]
    exact hkl x hx

/-- Only a single store is of a byte: the stores of a list are words. -/
theorem storesTo_tail (i : Instr) (s : State) : ∀ x ∈ (storesTo i s).tail, x.1 ≠ .byte := by
  unfold storesTo
  split
  case h_4 f _ _ _ _ =>
    intro x hx
    obtain ⟨y, -, rfl⟩ := List.mem_map.mp (List.mem_of_mem_tail hx)
    nofun
  all_goals nofun

end Sys2Proof.Machine

open Sys2Proof.Machine

/-- Settles O43, from where every instruction stores. -/
theorem memoryFrame : Obligations.MemoryFrame :=
  fun i s t hi ht => (exec_storesAt i s hi t ht).frame (storesTo_tail i s)
end

section
/-! ARM single transfers (42_arm_loadstore.md R360 to R375, R390 to R392): the addresses, the values, and one meaning
for the loads, one for the stores and one for the swaps. -/

open Sys2Proof

namespace Sys2Proof.Machine

/-! ### Loaded values -/

/-- A byte or a halfword is read with zeros above it (20_memory.md R118). -/
theorem load_narrow (s : State) (a : Word) :
    (s.load .byte a).toNat < 2 ^ 8 ∧ (s.load .half a).toNat < 2 ^ 16 := by
  simp only [State.load, busRead, wordOfBytes_toNat]
  constructor <;> simp <;> omega

/-- A word with no bits above the low ones, sign-extended from them. -/
theorem toInt_signExtend_setWidth {n : Nat} {v : Word} (hn : n < 32) (hv : v.toNat < 2 ^ (n + 1)) :
    ((v.setWidth (n + 1)).signExtend 32).toInt =
      if (v.toNat : Int) < 2 ^ n then (v.toNat : Int) else v.toNat - 2 ^ (n + 1) := by
  have hsign : (2 * v.toNat < 2 ^ (n + 1)) = ((v.toNat : Int) < 2 ^ n) := by
    rw [Nat.pow_succ', eq_iff_iff]
    norm_cast
    omega
  rw [BitVec.toInt_signExtend_of_le hn, BitVec.toInt_eq_toNat_cond, BitVec.toNat_setWidth, Nat.mod_eq_of_lt hv]
  simp only [hsign]
  norm_cast

/-! ### One meaning for the loads, the stores and the swaps -/

section
variable {i : Instr} {s : State}

/-- The nine loads charge, write the base back and then the register. -/
theorem exec_armLoad {f : LoadForm} (hf : armLoadOf i s = some f) (hcond : condPassed f.cond s.cpsr = true) :
    exec i s = loadFinish f.addr f.rd f.value (s.charge (s.sc + s.nd f.width f.addr.addr + 1)) := by
  rw [← chargeLoad_eq]
  suffices h : exec i s = if condPassed f.cond s.cpsr then
      loadFinish f.addr f.rd f.value (chargeLoad f.width f.addr.addr s) else .next s.skip by rw [h, if_pos hcond]
  cases i with
  | armLdrPre | armLdrPost | armLdrbPre | armLdrbPost | armLdrt | armLdrbt | armLdrh | armLdrsb | armLdrsh =>
    cases hf
    rfl
  | _ => cases hf

/-- The seven stores are one store of a register. -/
theorem exec_armStore {f : StoreForm} (hf : armStoreOf i s = some f) (hcond : condPassed f.cond s.cpsr = true) :
    exec i s = storeReg f.width f.addr f.rd s := by
  suffices h : exec i s = if condPassed f.cond s.cpsr then storeReg f.width f.addr f.rd s else .next s.skip by
    rw [h, if_pos hcond]
  cases i with
  | armStrPre | armStrPost | armStrbPre | armStrbPost | armStrt | armStrbt | armStrh =>
    cases hf
    rfl
  | _ => cases hf

/-- Both swaps charge, store and then write the register. -/
theorem exec_armSwap {f : SwapForm} (hf : armSwapOf i s = some f) (hcond : condPassed f.cond s.cpsr = true) :
    let a := s.readReg f.rn
    let u := { s with dev := busWrite s.dev f.width a (s.readReg f.rm) }
    exec i s = .next ((u.charge (s.sc + s.nd f.width a + s.nd f.width a + 1)).writeResult f.rd f.value) := by
  intro a u
  have hu : u.charge (s.sc + s.nd f.width a + s.nd f.width a + 1) =
      (chargeSwap f.width a s).store f.width a (s.readReg f.rm) := by
    rw [chargeSwap_eq]
    rfl
  suffices h : exec i s = if condPassed f.cond s.cpsr then
      .next (((chargeSwap f.width a s).store f.width a (s.readReg f.rm)).writeResult f.rd f.value)
      else .next s.skip by rw [h, if_pos hcond, hu]
  cases i with
  | armSwp | armSwpb =>
    cases hf
    rfl
  | _ => cases hf

end

/-! ### The next instruction, and the refill, after a write-back -/

/-- In ARM state the next instruction is four bytes on, n cycles later. -/
theorem advance_charge_arm {s : State} (h : s.cpsr.t = false) (n : Nat) : (s.charge n).advance = s.goes (s.pc + 4) n :=
  (advance_arm (s := s.charge n) h).trans (goes_charge s _ n 0)

/-- A write-back leaves the refill as it was. -/
theorem refillAt_applyBase (o : AddrOut) (s : State) (pc : Word) : (o.applyBase s).refillAt pc = s.refillAt pc := by
  simp only [State.refillAt, State.codeWidth, State.instrBytes, applyBase_dev, applyBase_cpsr]

/-- A store of a register: the bus write, the base and the way on, after the cycles. -/
theorem storeReg_charge (w : Width) (o : AddrOut) (rd : Reg) (s : State) :
    storeReg w o rd s =
      .next (finishBase o ((o.applyBase { s with dev := busWrite s.dev w o.addr (s.readRegFar rd) }).charge
        (s.nc + s.nd w o.addr))) := by
  rw [storeReg, writeBase_applyBase, chargeStore_eq, ← applyBase_charge]
  rfl

/-- A register as a store sees it in ARM state: r15 is pc + 12 (R362). -/
theorem readRegFar_arm {s : State} (h : s.cpsr.t = false) (r : Reg) :
    s.readRegFar r = if r = 15 then s.pc + 12 else s.readReg r := by
  by_cases hr : r = 15
  · simp [State.readRegFar, State.pcFar, hr, h]
  · simp [State.readRegFar, State.readReg, hr]

end Sys2Proof.Machine

open Sys2Proof.Machine

/-- Settles O22: the forms are those of the model, an immediate offset being its number. -/
theorem transferAddresses : Obligations.TransferAddresses := by
  refine ⟨fun s w ⟨up, rn, off⟩ => ?_, fun s ⟨pre, up, wback, rn, off⟩ => ?_⟩
  · cases off with
    | imm o =>
      dsimp only
      rw [BitVec.ofNat_toNat]
      exact ⟨rfl, rfl⟩
    | reg => exact ⟨rfl, rfl⟩
  · cases off with
    | imm o =>
      dsimp only
      rw [BitVec.ofNat_toNat]
      cases pre <;> cases wback <;> rfl
    | reg => cases pre <;> cases wback <;> rfl

/-- Settles O23: rotations bit by bit, extensions of what is read with zeros above it. -/
theorem loadedValues : Obligations.LoadedValues := by
  intro s a
  obtain ⟨hbyte, hhalf⟩ := load_narrow s a
  refine ⟨fun k hk => getLsbD_ror _ _ hk, fun k hk => getLsbD_ror _ _ hk, ⟨hbyte, hhalf, rfl⟩,
    toInt_signExtend_setWidth (by decide) hbyte, fun heven => ?_, fun hodd => ?_⟩
  · rw [loadSignedHalfValue, if_pos heven]
    exact toInt_signExtend_setWidth (by decide) hhalf
  · rw [loadSignedHalfValue, if_neg (by omega)]

/-- Settles O24: the base is written back, then the register, and then comes the way on. -/
theorem armLoads : Obligations.ArmLoads := by
  intro i s f hf ht hcond
  have hu : (f.addr.applyBase s).cpsr.t = false := by rw [applyBase_cpsr, ht]
  have hv : ((f.addr.applyBase s).withReg s.cpsr.m f.rd f.value).cpsr.t = false := by rw [withReg_cpsr, hu]
  dsimp only
  rw [exec_armLoad hf hcond, loadFinish_eq, applyBase_charge, setReg_withReg, withReg_charge, State.charge_cpsr,
    applyBase_cpsr, branchTo_charge_arm hu, refillAt_applyBase, advance_charge_arm hv, withReg_pc, applyBase_pc]
  cases f.addr.nextPc with
  | none => rfl
  | some x =>
    dsimp only
    rw [branchTo_charge_arm hv, refillAt_withReg, refillAt_applyBase]

/-- Settles O25: the store, the base and then the way on, in the devices that the store has left. -/
theorem armStores : Obligations.ArmStores := by
  intro i s f hf ht hcond v u cost
  have hexec : exec i s = .next (finishBase f.addr (u.charge cost)) := by
    rw [exec_armStore hf hcond, storeReg_charge, readRegFar_arm ht]
  have hpc : u.pc = s.pc := applyBase_pc _ _
  have hu : u.cpsr.t = false := (congrArg Psr.t (applyBase_cpsr _ _)).trans ht
  rw [hexec, finishBase_eq, advance_charge_arm hu, hpc]
  cases f.addr.nextPc with
  | none => rfl
  | some x => exact congrArg Host.Outcome.next (branchTo_charge_arm hu cost x)

/-- Settles O26: the swap's store leaves the registers and T as they were. -/
theorem swaps : Obligations.Swaps := by
  intro i s f hf ht hcond
  dsimp only
  rw [exec_armSwap hf hcond, writeResult_charge, instrBytes_arm (by exact ht)]
  simp only [ht]
  rfl
end

section
/-! The lists and addresses of block transfers (42_arm_loadstore.md R380, R383). -/

open Sys2Proof

namespace Sys2Proof.Machine

theorem mem_listRegs (list : BitVec 16) (r : Reg) : r ∈ listRegs list ↔ list.getLsbD r.val = true := by
  simp [listRegs]

theorem pairwise_listRegs (list : BitVec 16) : (listRegs list).Pairwise (· < ·) :=
  (List.pairwise_lt_finRange 16).filter _

theorem listRegs_ne_nil {list : BitVec 16} (h : list ≠ 0) : listRegs list ≠ [] := by
  intro hnil
  refine h (BitVec.eq_of_getLsbD_eq fun k hk => ?_)
  have hk' := (mem_listRegs list ⟨k, hk⟩).not.mp (by rw [hnil]; exact List.not_mem_nil)
  exact (Bool.eq_false_of_not_eq_true hk').trans BitVec.getLsbD_zero.symm

section
variable (p u : Bool) (base : Word) (list : BitVec 16)

theorem blockAddr_regs : (blockAddr p u base list).regs = if list = 0 then [15] else listRegs list := rfl

/-- A transfer moves at least one register, in rising order. -/
theorem blockAddr_regs_ne_nil : (blockAddr p u base list).regs ≠ [] := by
  rw [blockAddr_regs]
  split
  · exact List.cons_ne_nil 15 []
  · next h => exact listRegs_ne_nil h

theorem pairwise_blockAddr_regs : (blockAddr p u base list).regs.Pairwise (· < ·) := by
  rw [blockAddr_regs]
  split
  · exact List.pairwise_singleton _ 15
  · exact pairwise_listRegs list

/-- The size of a transfer: four bytes a register, and 64 for an empty list (R383). -/
theorem blockSize_eq (n : Nat) : 4 * (if list = 0 then 16 else n) = if list = 0 then 64 else 4 * n := by
  split <;> rfl

end

/-- Word 0 of a transfer is at its first address (R380). -/
theorem wordAddr_zero (a : Word) : a + BitVec.ofNat 32 (4 * 0) = a := BitVec.add_zero a

/-- Word k + 1 of a transfer is word k from the next address up. -/
theorem wordAddr_succ (a : Word) (k : Nat) :
    a + BitVec.ofNat 32 (4 * (k + 1)) = a + 4 + BitVec.ofNat 32 (4 * k) := by
  rw [Nat.mul_succ, Nat.add_comm (4 * k), BitVec.ofNat_add, ← BitVec.add_assoc]
  rfl

end Sys2Proof.Machine

open Sys2Proof.Machine

/-- Settles O27: the table of R380, with 64 bytes for an empty list. -/
theorem blockAddresses : Obligations.BlockAddresses := by
  intro base list
  dsimp only
  rw [← blockSize_eq]
  exact ⟨mem_listRegs list, pairwise_listRegs list, rfl, rfl, rfl, rfl, rfl, rfl, rfl, rfl, fun _ _ => rfl⟩
end

section
/-! Block stores (42_arm_loadstore.md R382 to R386): the first word, the base, and then words from registers that no
longer change. -/

open Sys2Proof

namespace Sys2Proof.Machine

/-! ### Words from an address up -/

/-- The words that a list of registers gives at rising addresses, by a value for each register. -/
def wordsFrom (value : Reg → Word) : List Reg → Word → List (Word × Word)
  | [], _ => []
  | r :: rs, a => (a, value r) :: wordsFrom value rs (a + 4)

theorem wordsFrom_eq_map (value : Reg → Word) (rs : List Reg) (a : Word) :
    wordsFrom value rs a =
      (List.range rs.length).map fun k => (a + BitVec.ofNat 32 (4 * k), value (rs.getD k 0)) := by
  induction rs generalizing a with
  | nil => rfl
  | cons r rs ih =>
    rw [wordsFrom, ih, List.length_cons, List.range_succ_eq_map, List.map_cons, List.map_map, wordAddr_zero]
    simp only [Function.comp_def, Nat.succ_eq_add_one, wordAddr_succ, List.getD_cons_succ, List.getD_cons_zero]

/-- The stores of a block store: the first word, and the others, which see the base as written back (R382). -/
theorem stores_eq_cons (f : BlockForm) (s : State) {r : Reg} {rs : List Reg} (h : f.out.regs = r :: rs) :
    f.stores s = (f.out.first, f.stored s r 0) :: wordsFrom (f.stored s · 1) rs (f.out.first + 4) := by
  have hlater (x : Reg) (k : Nat) : f.stored s x (k + 1) = f.stored s x 1 := rfl
  rw [BlockForm.stores, h, wordsFrom_eq_map, List.length_cons, List.range_succ_eq_map, List.map_cons, List.map_map,
    BlockOut.wordAddr, wordAddr_zero]
  simp only [Function.comp_def, Nat.succ_eq_add_one, BlockOut.wordAddr, wordAddr_succ, List.getD_cons_succ,
    List.getD_cons_zero, hlater]

/-! ### The stores -/

/-- The state with other devices: nothing else differs. -/
def State.withDev (s : State) (d : Devices) : State := { s with dev := d }

theorem withDev_charge (s : State) (n : Nat) (d : Devices) : (s.charge n).withDev d = (s.withDev d).charge n := rfl
theorem store_eq_withDev (s : State) (w : Width) (a v : Word) : s.store w a v = s.withDev (busWrite s.dev w a v) := rfl

/-- A change of the devices and a write-back commute. -/
theorem applyBase_withDev (o : AddrOut) (s : State) (d : Devices) :
    o.applyBase (s.withDev d) = (o.applyBase s).withDev d := by
  unfold AddrOut.applyBase State.withReg
  cases o.wback with
  | none => rfl
  | some v => dsimp only [State.withDev]; split <;> rfl

/-- What STM stores for a register depends neither on the devices nor on the cycles. -/
theorem blockSource_withDev (user : Bool) (r : Reg) (s : State) (d : Devices) :
    blockSource user r (s.withDev d) = blockSource user r s := rfl
theorem blockSource_charge (user : Bool) (r : Reg) (s : State) (n : Nat) :
    blockSource user r (s.charge n) = blockSource user r s := rfl

/-- One store of STM, after its charge, and the write-back. -/
theorem writeBase_store_charge (o : AddrOut) (s : State) (n : Nat) (a v : Word) :
    writeBase o ((s.charge n).store .word a v) =
      ((o.applyBase s).withDev (busWrite s.dev .word a v)).charge n := by
  rw [writeBase_applyBase, store_eq_withDev, withDev_charge, applyBase_charge, applyBase_withDev, State.charge_dev]

/-- Stores with no write-back among them: no register changes, so each stores what it holds at first. -/
theorem blockStores_plain (user : Bool) (a b : Word) (base : Reg) (q : Access) (rs : List Reg) (s : State) :
    let words := wordsFrom (blockSource user · s) rs a
    blockStores user { addr := b, base := base, wback := none } q rs a s =
      (s.withDev (writeWords s.dev words)).charge (storesCost words q s.dev) := by
  induction rs generalizing q a s with
  | nil => rfl
  | cons r rs ih =>
    dsimp only [blockStores, State.chargeData]
    rw [writeBase_store_charge, ih]
    simp only [blockSource_charge, blockSource_withDev]
    exact charge_charge (s.withDev _) _ _

/-- The write-back of a block store. -/
def BlockForm.baseOut (f : BlockForm) : AddrOut :=
  { addr := f.out.first, base := f.rn, wback := if f.wback then some f.out.wback else none }

/-- A write of a name is read back through the names that share its register; name r15 writes nothing. -/
theorem bankedReg_withReg (s : State) (m n : BitVec 5) (i j : Reg) (v : Word) :
    (s.withReg m i v).bankedReg n j = if i ≠ 15 ∧ bankIndex m i = bankIndex n j then v else s.bankedReg n j :=
  withReg_regs s m i v _

/-- What the words of a block store hold: the registers as they are, and after the first word as the write-back has left
them. -/
theorem stored_eq_blockSource (f : BlockForm) (s : State) (r : Reg) :
    f.stored s r 0 = blockSource f.user r s ∧ f.stored s r 1 = blockSource f.user r (f.baseOut.applyBase s) := by
  have hpc : (f.baseOut.applyBase s).pcFar = s.pcFar := by
    rw [State.pcFar, applyBase_pc, applyBase_cpsr, State.pcFar]
  unfold BlockForm.stored blockSource
  rw [hpc, applyBase_cpsr]
  dsimp only
  generalize (if f.user then modeUsr else s.cpsr.m) = m
  refine ⟨by simp, ?_⟩
  split
  · rfl
  · unfold AddrOut.applyBase BlockForm.baseOut
    cases f.wback with
    | false => simp
    | true => simp [bankedReg_withReg, and_comm, eq_comm (a := bankIndex m r)]

/-- A block store: its words in order, the base and the way on. -/
theorem blockStore_eq (f : BlockForm) (s : State) (hregs : f.out.regs ≠ []) :
    blockStore f.wback f.user f.rn f.out s = .next (finishBase f.baseOut
      ((f.baseOut.applyBase (s.withDev (writeWords s.dev (f.stores s)))).charge
        (s.nc + storesCost (f.stores s) .nonseq s.dev))) := by
  obtain ⟨r, rs, h⟩ := List.exists_cons_of_ne_nil hregs
  have hfirst := (stored_eq_blockSource f s r).1
  have hlater := funext fun x => (stored_eq_blockSource f s x).2
  rw [stores_eq_cons f s h, hfirst, hlater, applyBase_withDev]
  refine congrArg (fun t => Host.Outcome.next (finishBase f.baseOut t)) ?_
  rw [h]
  dsimp only [blockStores, State.chargeData, State.chargeCode]
  rw [charge_charge, writeBase_store_charge, blockStores_plain]
  simp only [blockSource_charge, blockSource_withDev]
  exact (charge_charge ((f.baseOut.applyBase s).withDev _) _ _).trans (congrArg _ (Nat.add_assoc _ _ _))

/-! ### One meaning for STM, PUSH and STMIA -/

/-- They are one block store, of at least one register. -/
theorem exec_blockStore {i : Instr} {s : State} {f : BlockForm} (hf : blockStoreOf i s = some f)
    (hcond : condPassed f.cond s.cpsr = true) :
    exec i s = blockStore f.wback f.user f.rn f.out s ∧ f.out.regs ≠ [] := by
  suffices h : exec i s = (if condPassed f.cond s.cpsr then blockStore f.wback f.user f.rn f.out s else
      .next s.skip) ∧ f.out.regs ≠ [] by rwa [if_pos hcond] at h
  cases i with
  | armStm | thumbPush | thumbStmia =>
    cases hf
    exact ⟨rfl, blockAddr_regs_ne_nil _ _ _ _⟩
  | _ => cases hf

/-- A block transfer that loads no r15 goes on, after n cycles, at a written-back r15 or at the next instruction. -/
theorem finishBase_charge (wback : Bool) (rn : Reg) (a v : Word) (s : State) (n : Nat) :
    finishBase { addr := a, base := rn, wback := if wback then some v else none } (s.charge n) =
      if wback = true ∧ rn = 15 then s.goes (alignPc s.cpsr.t v) (n + s.refillAt (alignPc s.cpsr.t v))
      else s.goes (s.pc + s.instrBytes) n := by
  have hnext : (s.charge n).advance = s.goes (s.pc + s.instrBytes) n := goes_charge s _ n 0
  unfold finishBase
  cases wback with
  | false => exact hnext
  | true => simp only [if_true, true_and, branchTo_charge, hnext]

end Sys2Proof.Machine

open Sys2Proof.Machine

/-- Settles O29: the words, the base and the way on, in the devices that the words have left. -/
theorem blockStores : Obligations.BlockStores := by
  intro i s f hf hcond u v cost target
  obtain ⟨hexec, hregs⟩ := exec_blockStore hf hcond
  have hv : f.baseOut.applyBase u = v := by
    unfold AddrOut.applyBase BlockForm.baseOut
    cases hw : f.wback <;> simp [v, hw, u]
  have hcpsr : v.cpsr = s.cpsr := hv ▸ applyBase_cpsr _ _
  have hpc : v.pc = s.pc := hv ▸ applyBase_pc _ _
  have hrefill (x : Word) : v.refillAt x = u.refillAt x := hv ▸ refillAt_applyBase _ _ x
  have hfinish := finishBase_charge f.wback f.rn f.out.first f.out.wback v cost
  rw [hcpsr, hpc, hrefill, instrBytes_congr hcpsr] at hfinish
  rw [hexec, blockStore_eq f s hregs]
  refine congrArg Host.Outcome.next (Eq.trans ?_ hfinish)
  rw [← hv]
  rfl
end

section
/-! Block loads (42_arm_loadstore.md R381, R383, R385, R386): all words are read before the base and the registers are
written, and each register of the list gets the word of its place. -/

open Sys2Proof

namespace Sys2Proof.Machine

/-! ### Which registers a load writes

A write of a register changes registers alone, and so do a write-back and the loaded registers. -/

theorem withReg_frame (s : State) (m : BitVec 5) (i : Reg) (v : Word) :
    ∃ r, s.withReg m i v = { s with regs := r } := by
  unfold State.withReg
  split
  · exact ⟨s.regs, rfl⟩
  · exact ⟨_, rfl⟩

theorem writeBase_frame (o : AddrOut) (s : State) : ∃ r, writeBase o s = { s with regs := r } := by
  unfold writeBase
  split
  · exact withReg_frame _ _ _ _
  · exact ⟨s.regs, rfl⟩

theorem setLoaded_frame (m : BitVec 5) (vals : List (Reg × Word)) (s : State) :
    ∃ r, setLoaded m vals s = { s with regs := r } := by
  induction vals generalizing s with
  | nil => exact ⟨s.regs, rfl⟩
  | cons rv vals ih =>
    obtain ⟨r, hr⟩ := withReg_frame s m rv.1 rv.2
    obtain ⟨r', hr'⟩ := ih (s.withReg m rv.1 rv.2)
    exact ⟨r', hr'.trans (by rw [hr])⟩

/-- A physical register that no name of the list selects stays. -/
theorem setLoaded_regs_other (m : BitVec 5) (vals : List (Reg × Word)) (s : State) {x : Fin 30}
    (h : ∀ rv ∈ vals, rv.1 ≠ 15 → bankIndex m rv.1 ≠ x) : (setLoaded m vals s).regs[x] = s.regs[x] := by
  induction vals generalizing s with
  | nil => rfl
  | cons rv vals ih =>
    obtain ⟨hrv, hvals⟩ := List.forall_mem_cons.mp h
    refine (ih (s.withReg m rv.1 rv.2) hvals).trans ?_
    rw [withReg_regs, if_neg fun hx => hrv hx.1 hx.2]

/-- Names of one bank are distinct registers (R32). -/
theorem bankIndex_ne {m : BitVec 5} {i j : Reg} (hi : i ≠ 15) (hj : j ≠ 15) (h : i ≠ j) :
    bankIndex m i ≠ bankIndex m j := fun he =>
  h ((nameOfBank_bankIndex m i hi).symm.trans ((congrArg nameOfBank he).trans (nameOfBank_bankIndex m j hj)))

/-- The register at place k of a rising list gets the word of that place. -/
theorem setLoaded_regs_place (m : BitVec 5) (s t : State) {rs : List Reg} (a : Word) (hrs : rs.Pairwise (· < ·))
    {k : Nat} (hk : k < rs.length) (h15 : rs.getD k 0 ≠ 15) :
    (setLoaded m (blockValues s rs a) t).regs[bankIndex m (rs.getD k 0)] =
      s.load .word (a + BitVec.ofNat 32 (4 * k)) := by
  induction rs generalizing t a k with
  | nil => exact absurd hk (Nat.not_lt_zero k)
  | cons r rs ih =>
    obtain ⟨hr, hrs⟩ := List.pairwise_cons.mp hrs
    cases k with
    | zero =>
      have hother : ∀ rv ∈ blockValues s rs (a + 4), rv.1 ≠ 15 → bankIndex m rv.1 ≠ bankIndex m r :=
        fun rv hrv h => bankIndex_ne h h15 (hr _ (fst_mem_of_mem_blockValues hrv)).ne'
      refine (setLoaded_regs_other m _ (t.withReg m r (s.load .word a)) hother).trans ?_
      rw [withReg_regs, if_pos ⟨h15, rfl⟩, wordAddr_zero]
    | succ k =>
      rw [wordAddr_succ]
      exact ih (t.withReg m r (s.load .word a)) (a + 4) hrs (Nat.lt_of_succ_lt_succ hk) h15

/-- The word loaded for r15 is the last of a rising list. -/
theorem loadedPc_blockValues (s : State) {rs : List Reg} (a : Word) (hrs : rs.Pairwise (· < ·)) :
    loadedPc (blockValues s rs a) =
      if rs.getLastD 0 = 15 then some (s.load .word (a + BitVec.ofNat 32 (4 * (rs.length - 1)))) else none := by
  induction rs generalizing a with
  | nil => rfl
  | cons r rs ih =>
    obtain ⟨hr, hrs⟩ := List.pairwise_cons.mp hrs
    cases rs with
    | nil => simp [blockValues, loadedPc]
    | cons q rs =>
      have h15 : r ≠ 15 := ((hr q List.mem_cons_self).trans_le (Fin.le_last q)).ne
      rw [blockValues, loadedPc, if_neg h15, ih (a + 4) hrs, List.length_cons, Nat.add_sub_cancel, ← wordAddr_succ]
      rfl

/-! ### The cost -/

theorem chargeBlock_eq (q : Access) (rs : List Reg) (a : Word) (s : State) :
    chargeBlock q rs a s = s.charge (((List.range rs.length).map fun k =>
      accessCost s.dev .word (a + BitVec.ofNat 32 (4 * k)) (if k = 0 then q else .seq)).sum) := by
  induction rs generalizing q a s with
  | nil => rfl
  | cons r rs ih =>
    rw [chargeBlock, ih, List.length_cons, List.range_succ_eq_map, List.map_cons, List.map_map, List.sum_cons,
      wordAddr_zero]
    simp only [Function.comp_def, Nat.succ_eq_add_one, wordAddr_succ, ite_self, Nat.add_one_ne_zero, if_false, if_true]
    exact charge_charge s _ _

/-! ### The meaning -/

/-- The write-back of a block load. -/
def LoadBlock.baseOut (l : LoadBlock) : AddrOut :=
  { addr := l.form.out.wback, base := l.form.rn, wback := if l.writesBase then some l.form.out.wback else none }

/-- A name outside the places of a list selects another register. -/
theorem bankIndex_ne_of_placeOf_none {f : BlockForm} {s : State} {x : Fin 30} (h : f.placeOf s x = none) {r : Reg}
    (hr : r ∈ f.out.regs) (h15 : r ≠ 15) : bankIndex (f.bank s) r ≠ x := by
  obtain ⟨k, hk, rfl⟩ := List.getElem_of_mem hr
  have hplace := List.find?_eq_none.mp h k (List.mem_range.mpr hk)
  rw [← List.getD_eq_getElem _ 0 hk] at h15 ⊢
  exact fun hx => hplace (Bool.and_eq_true_iff.mpr ⟨bne_iff_ne.mpr h15, beq_iff_eq.mpr hx⟩)

/-- What the write-back leaves in a register. -/
theorem writeBase_regs (l : LoadBlock) (s : State) (x : Fin 30) :
    (writeBase l.baseOut s).regs[x] =
      if l.writesBase && l.form.rn != 15 && bankIndex s.cpsr.m l.form.rn == x then l.form.out.wback else s.regs[x] := by
  unfold writeBase LoadBlock.baseOut
  cases l.writesBase with
  | false => simp
  | true =>
    refine (withReg_regs s _ _ _ x).trans ?_
    simp

section
variable (l : LoadBlock) (s : State) (hregs : l.form.out.regs.Pairwise (· < ·))
include hregs

/-- Every register after the base and the loaded registers are written, whatever the cycles. -/
theorem setLoaded_regs (n : Nat) (x : Fin 30) :
    (setLoaded (l.form.bank s) (blockValues s l.form.out.regs l.form.out.first)
      (writeBase l.baseOut (s.charge n))).regs[x] = l.regAfter s x := by
  unfold LoadBlock.regAfter
  split
  · next k hk =>
    have hlt := List.mem_range.mp (List.mem_of_find?_eq_some hk)
    have hplace := List.find?_some hk
    simp only [Bool.and_eq_true, bne_iff_ne, beq_iff_eq] at hplace
    obtain ⟨h15, rfl⟩ := hplace
    exact setLoaded_regs_place _ s _ _ hregs hlt h15
  · next hnone =>
    rw [setLoaded_regs_other _ _ _ fun rv hrv =>
      bankIndex_ne_of_placeOf_none hnone (fst_mem_of_mem_blockValues hrv), writeBase_regs]
    rfl

/-- The base and the loaded registers are all that has changed. -/
theorem setLoaded_eq (n : Nat) :
    setLoaded (l.form.bank s) (blockValues s l.form.out.regs l.form.out.first) (writeBase l.baseOut (s.charge n)) =
      { s with regs := Vector.ofFn (l.regAfter s) }.charge n := by
  have hvalue := setLoaded_regs l s hregs n
  obtain ⟨r, hr⟩ := writeBase_frame l.baseOut (s.charge n)
  obtain ⟨r', hr'⟩ := setLoaded_frame (l.form.bank s) (blockValues s l.form.out.regs l.form.out.first)
    (writeBase l.baseOut (s.charge n))
  rw [hr'] at hvalue ⊢
  obtain rfl : r' = Vector.ofFn (l.regAfter s) :=
    Vector.ext fun k hk => (hvalue ⟨k, hk⟩).trans (Vector.getElem_ofFn hk).symm
  rw [hr]
  rfl

/-- A block load: the registers, and then the way on, through a PSR restore where it asks for one. -/
theorem blockLoad_eq :
    let u := { s with regs := Vector.ofFn (l.regAfter s) }.charge (s.sc + l.form.dataCost s.dev + 1)
    blockLoad l.form.wback l.form.user l.restore l.form.rn l.inList l.form.out s =
      match l.pcLoaded s with
      | none => .next (finishBase l.baseOut u)
      | some v => if l.restore then andThen u.psrRestore fun t => .next (t.branchTo v) else .next (u.branchTo v) := by
  have hcharge : (chargeBlock .nonseq l.form.out.regs l.form.out.first (s.chargeCode .seq)).charge 1 =
      s.charge (s.sc + l.form.dataCost s.dev + 1) := by
    rw [chargeBlock_eq, State.chargeCode, charge_charge, charge_charge]
    rfl
  have hloaded := setLoaded_eq l s hregs (s.sc + l.form.dataCost s.dev + 1)
  have hpc : loadedPc (blockValues s l.form.out.regs l.form.out.first) = l.pcLoaded s := loadedPc_blockValues s _ hregs
  dsimp only
  rw [← hloaded, ← hcharge, ← hpc]
  unfold blockLoad
  dsimp only
  cases loadedPc (blockValues s l.form.out.regs l.form.out.first) <;> rfl

end

/-- LDM, POP and LDMIA are one block load, of registers in rising order. -/
theorem exec_blockLoad {i : Instr} {s : State} {l : LoadBlock} (hl : blockLoadOf i s = some l)
    (hcond : condPassed l.form.cond s.cpsr = true) :
    exec i s = blockLoad l.form.wback l.form.user l.restore l.form.rn l.inList l.form.out s ∧
      l.form.out.regs.Pairwise (· < ·) := by
  suffices h : exec i s = (if condPassed l.form.cond s.cpsr then
      blockLoad l.form.wback l.form.user l.restore l.form.rn l.inList l.form.out s else .next s.skip) ∧
      l.form.out.regs.Pairwise (· < ·) by rwa [if_pos hcond] at h
  cases i with
  | armLdm | thumbPop | thumbLdmia =>
    cases hl
    exact ⟨rfl, pairwise_blockAddr_regs _ _ _ _⟩
  | _ => cases hl

end Sys2Proof.Machine

open Sys2Proof.Machine

/-- Settles O28: the registers and the cycles, and then the way on, by whether r15 is loaded and the PSR restored. -/
theorem blockLoads : Obligations.BlockLoads := by
  intro i s l hl hcond
  obtain ⟨hexec, hregs⟩ := exec_blockLoad hl hcond
  dsimp only
  rw [hexec, blockLoad_eq l s hregs]
  generalize Vector.ofFn (l.regAfter s) = r
  generalize s.sc + l.form.dataCost s.dev + 1 = n
  have hbranch (x : State) (v : Word) : (.next ((x.charge n).branchTo v) : Result) =
      .next (x.goes (alignPc x.cpsr.t v) (n + x.refillAt (alignPc x.cpsr.t v))) := by rw [branchTo_charge]
  cases l.pcLoaded s with
  | none => exact congrArg Host.Outcome.next (finishBase_charge l.writesBase l.form.rn _ _ { s with regs := r } n)
  | some v =>
    cases l.restore with
    | false => exact hbranch { s with regs := r } v
    | true =>
      simp only [if_true]
      cases hp : s.spsrOf s.cpsr.m with
      | none =>
        rw [psrRestore_none (s := State.charge { s with regs := r } n) hp]
        exact hbranch { s with regs := r } v
      | some p =>
        cases hlegal : legalMode p.m with
        | false =>
          rw [psrRestore_illegal (s := State.charge { s with regs := r } n) hp hlegal]
          exact (if_neg (by simp [hlegal])).symm
        | true =>
          rw [psrRestore_legal (s := State.charge { s with regs := r } n) hp hlegal]
          exact (hbranch { s with regs := r, cpsr := p } v).trans (if_pos hlegal).symm
end

section
/-! Where the branches go and what they cost (43_arm_branch_system.md R400, R401, R403). -/

open Sys2Proof

namespace Sys2Proof.Machine

/-- In ARM state r15 reads as the instruction's address plus 8 (R34). -/
theorem pcAhead_arm {s : State} (h : s.cpsr.t = false) : s.pcAhead = s.pc + 8 := by
  rw [State.pcAhead, h]
  rfl

/-- The case of r15 is in the operand read already (R34). -/
theorem ite_pcAhead_readReg (s : State) (r : Reg) : (if r = 15 then s.pcAhead else s.readReg r) = s.readReg r := by
  unfold State.readReg
  split <;> rfl

/-- A branch target as an integer, reduced modulo 2^32 (R400). -/
theorem add_branchOffset {n : Nat} (pc ahead : Word) (off : BitVec n) (unit : Nat) :
    pc + ahead + branchOffset off unit = BitVec.ofInt 32 (pc.toNat + ahead.toNat + unit * off.toInt) := by
  simp [branchOffset, BitVec.signExtend, BitVec.ofInt_add, BitVec.ofInt_mul, BitVec.mul_comm]

/-- A branch with exchange after n cycles: T is bit 0 of the target, which is aligned for it (R403). -/
theorem exchangeTo_charge (s : State) (n : Nat) (v : Word) :
    (s.charge n).exchangeTo v =
      let u := s.setFlags { s.cpsr with t := v.getLsbD 0 }
      u.goes (alignPc (v.getLsbD 0) v) (n + u.refillAt (alignPc (v.getLsbD 0) v)) :=
  branchTo_charge (s.setFlags { s.cpsr with t := v.getLsbD 0 }) n v

section
variable {cond : Cond} {s : State} (ht : s.cpsr.t = false) (hcond : condPassed cond s.cpsr = true)
include ht hcond

theorem exec_armB (off : BitVec 24) :
    exec (.armB cond off) s = .next ((s.charge s.sc).branchTo (s.pc + 8 + branchOffset off 4)) := by
  rw [← pcAhead_arm ht]
  exact (whenCond_passed hcond _ : execArmB cond off s = _)

/-- The link is the address of the next instruction (R401). -/
theorem exec_armBl (off : BitVec 24) :
    exec (.armBl cond off) s =
      .next (((s.withReg s.cpsr.m 14 (s.pc + 4)).charge s.sc).branchTo (s.pc + 8 + branchOffset off 4)) := by
  rw [← pcAhead_arm ht, ← instrBytes_arm ht]
  exact (whenCond_passed hcond _ : execArmBl cond off s = _)

theorem exec_armBx (rm : Reg) :
    exec (.armBx cond rm) s =
      .next ((s.charge s.sc).exchangeTo (if rm = 15 then s.pc + 8 else s.readReg rm)) := by
  rw [← pcAhead_arm ht, ite_pcAhead_readReg]
  exact (whenCond_passed hcond _ : execArmBx cond rm s = _)

end

end Sys2Proof.Machine

open Sys2Proof.Machine

/-- Settles O30: B and BL go where r15 plus the offset points, BL after its write of r14, which leaves the refill as it
was; BX goes on under the T it takes. -/
theorem armBranches : Obligations.ArmBranches := by
  intro cond s ht hcond
  refine ⟨fun off => ?_, fun rm => ?_⟩
  · have htarget : s.pc + 8 + branchOffset off 4 = BitVec.ofInt 32 ((s.pc.toNat : Int) + 8 + 4 * off.toInt) :=
      add_branchOffset s.pc 8 off 4
    have hlink : (s.withReg s.cpsr.m 14 (s.pc + 4)).cpsr.t = false := by rw [withReg_cpsr, ht]
    dsimp only
    rw [exec_armB ht hcond, exec_armBl ht hcond, branchTo_charge_arm ht, branchTo_charge_arm hlink, refillAt_withReg,
      htarget]
    exact ⟨rfl, rfl⟩
  · rw [exec_armBx ht hcond, exchangeTo_charge]
    rfl
end

section
/-! The Thumb operations on registers (44_thumb_alu.md R431 to R454, R456 to R461, 45_thumb_loadstore.md R487 to R490):
each is one of the ARM meanings, a write with flags, a test or a result without flags, after its code access (R880). -/

open Sys2Proof

namespace Sys2Proof.Machine

/-- In Thumb state an instruction is two bytes (R36). -/
theorem instrBytes_thumb {s : State} (h : s.cpsr.t = true) : s.instrBytes = 2 := by
  rw [State.instrBytes, h]
  rfl

/-- In Thumb state r15 reads as the instruction's address plus 4 (R34). -/
theorem pcAhead_thumb {s : State} (h : s.cpsr.t = true) : s.pcAhead = s.pc + 4 := by
  rw [State.pcAhead, h]
  rfl

theorem lowReg_ne_pc : ∀ r : LowReg, lowReg r ≠ 15 := by decide

/-- A shift by a register pays its I-cycle before the code access (R880). -/
theorem thumbShiftReg_eq (sh : ShiftType) (rs rd : LowReg) (s : State) :
    thumbShiftReg sh rs rd s =
      dpWrite .mov true (lowReg rd) 0 (regShift sh (s.readReg (lowReg rd)) (s.readReg (lowReg rs)) s.cpsr.c)
        (s.charge (s.sc + 1)) := by
  rw [Nat.add_comm, ← charge_charge]
  rfl

/-! ### One meaning for the operations, the comparisons and the moves -/

section
variable {i : Instr} {s : State}

/-- The operations of formats 1 to 4 are data-processing writes with S = 1; NEG is a reversed subtraction from zero, and
MVN does not look at its first operand. -/
theorem exec_thumbOp {o : ThumbOp} (ho : thumbOpOf i s = some o) :
    exec i s = dpWrite o.op true (lowReg o.rd) o.first o.snd (s.charge (s.sc + o.extra)) := by
  cases i with
  | thumbLslImm | thumbLsrImm | thumbAsrImm | thumbAddReg | thumbSubReg | thumbAnd | thumbEor | thumbAdc | thumbSbc
  | thumbNeg | thumbOrr | thumbBic | thumbMvn =>
    cases ho
    rfl
  | thumbAddImm3 | thumbSubImm3 | thumbMovImm | thumbAddImm8 | thumbSubImm8 =>
    cases ho
    rw [BitVec.ofNat_toNat]
    rfl
  | thumbLslReg | thumbLsrReg | thumbAsrReg | thumbRor =>
    cases ho
    exact thumbShiftReg_eq _ _ _ s
  | _ => cases ho

/-- The comparisons are tests that leave C to the operation. -/
theorem exec_thumbTest {op : AluOp} {a b : Word} (hop : thumbTestOf i s = some (op, a, b)) :
    exec i s = dpTest op a (plainOperand s b) (s.charge s.sc) := by
  cases i with
  | thumbTst | thumbCmp | thumbCmn | thumbCmpHi =>
    cases hop
    rfl
  | thumbCmpImm =>
    cases hop
    rw [BitVec.ofNat_toNat]
    rfl
  | _ => cases hop

/-- The moves and address computations write a result, scaled offsets in bytes (R487 to R490). -/
theorem exec_thumbMove {rd : Reg} {v : Word} (ht : s.cpsr.t = true) (hmove : thumbMoveOf i s = some (rd, v)) :
    exec i s = .next ((s.charge s.sc).writeResult rd v) := by
  cases i with
  | thumbAddHi | thumbMovHi =>
    cases hmove
    rfl
  | thumbAddPc =>
    cases hmove
    rw [← zeroExtend_mul_ofNat _ 4, ← pcAhead_thumb ht]
    rfl
  | thumbAddSp | thumbIncSp | thumbDecSp =>
    cases hmove
    rw [← zeroExtend_mul_ofNat _ 4]
    rfl
  | _ => cases hmove

end

end Sys2Proof.Machine

open Sys2Proof.Machine

/-- Settles O32: each meaning in Thumb state, where an instruction is two bytes, a low register is never r15, and a
write of r15 is halfword-aligned. -/
theorem thumbRegisterOperations : Obligations.ThumbRegisterOperations := by
  intro i s ht
  refine ⟨fun o ho => ?_, fun op a b hop => ?_, fun rd v hmove => ?_⟩
  · rw [exec_thumbOp ho, dpWrite_register (lowReg_ne_pc o.rd), withReg_charge, goes_charge,
      instrBytes_thumb (s := s.charge _) ht]
    rfl
  · rw [exec_thumbTest hop, dpTest_eq, goes_charge, instrBytes_thumb (s := s.charge _) ht]
    rfl
  · rw [exec_thumbMove ht hmove, writeResult_charge, instrBytes_thumb ht, ht]
    rfl
end

section
/-! The Thumb single transfers (45_thumb_loadstore.md R470 to R486): each is one load or one store of a low register. -/

open Sys2Proof

namespace Sys2Proof.Machine

/-! ### Addresses, and the word of the PC-relative load -/

/-- An immediate offset is multiplied by the width in the machine's words (R479 to R484). -/
theorem thumbBaseImm_eq (s : State) (rb : LowReg) (off : BitVec 5) (scale : Nat) :
    thumbBaseImm s rb off.toNat scale = s.readReg (lowReg rb) + off.zeroExtend 32 * BitVec.ofNat 32 scale := by
  rw [thumbBaseImm, zeroExtend_mul_ofNat]

/-- An address relative to r15 is aligned: the base has bit 1 cleared and the offset counts words (R470). -/
theorem pcBase_add_wordOffset_aligned {n : Nat} (s : State) (off : BitVec n) :
    (s.pcBase + wordOffset off).toNat % 4 = 0 := by
  have hbase : s.pcBase.toNat = s.pcAhead.toNat / 4 * 4 := (and_alignMask_toNat s.pcAhead).2
  have hoff : wordOffset off = BitVec.ofNat 32 (4 * off.toNat) := zeroExtend_mul_ofNat off 4
  rw [BitVec.toNat_add, hbase, hoff, BitVec.toNat_ofNat]
  omega

/-- A word at an aligned address is loaded as it is, without a rotation (R361). -/
theorem loadWordValue_aligned (s : State) {a : Word} (h : a.toNat % 4 = 0) : loadWordValue s a = s.load .word a := by
  simp [loadWordValue, rotateLoaded, h, BitVec.rotateRight_def]

/-! ### One meaning for the loads and one for the stores -/

section
variable {i : Instr} {s : State}

/-- The ten loads are one load of a low register; the PC-relative one has no rotation to make. -/
theorem exec_thumbLoad {f : ThumbMem} (ht : s.cpsr.t = true) (hf : thumbLoadOf i s = some f) :
    exec i s = thumbLoad f.width f.rd f.addr f.value s := by
  cases i with
  | thumbLdrReg | thumbLdrbReg | thumbLdsbReg | thumbLdrhReg | thumbLdshReg =>
    cases hf
    rfl
  | thumbLdrImm | thumbLdrbImm | thumbLdrhImm =>
    cases hf
    rw [thumbBaseImm_eq]
    rfl
  | thumbLdrSp =>
    cases hf
    rw [← zeroExtend_mul_ofNat _ 4]
    rfl
  | thumbLdrPc rd word =>
    cases hf
    rw [← zeroExtend_mul_ofNat _ 4, ← pcAhead_thumb ht]
    exact congrArg (thumbLoad .word rd _ · s) (loadWordValue_aligned s (pcBase_add_wordOffset_aligned s word)).symm
  | _ => cases hf

/-- The seven stores are one store of a low register. -/
theorem exec_thumbStore {w : Width} {rd : LowReg} {a : Word} (hf : thumbStoreOf i s = some (w, rd, a)) :
    exec i s = thumbStore w rd a s := by
  cases i with
  | thumbStrReg | thumbStrbReg | thumbStrhReg =>
    cases hf
    rfl
  | thumbStrImm | thumbStrbImm | thumbStrhImm =>
    cases hf
    rw [thumbBaseImm_eq]
    rfl
  | thumbStrSp =>
    cases hf
    rw [← zeroExtend_mul_ofNat _ 4]
    rfl
  | _ => cases hf

/-- A load of a low register: the register, and the next instruction after Sc, Nd and one I (R880). -/
theorem thumbLoad_eq (ht : s.cpsr.t = true) (w : Width) (rd : LowReg) (a v : Word) :
    thumbLoad w rd a v s =
      .next ((s.withReg s.cpsr.m (lowReg rd) v).goes (s.pc + 2) (s.sc + s.nd w a + 1)) := by
  rw [thumbLoad, chargeLoad_eq, writeResult_charge, if_neg (lowReg_ne_pc rd), instrBytes_thumb ht]

/-- A store of a low register: the bus write, and the next instruction after Nc and Nd, priced before it (R880). -/
theorem thumbStore_eq (ht : s.cpsr.t = true) (w : Width) (rd : LowReg) (a : Word) :
    thumbStore w rd a s =
      .next ({ s with dev := busWrite s.dev w a (s.readReg (lowReg rd)) }.goes (s.pc + 2) (s.nc + s.nd w a)) := by
  rw [thumbStore, chargeStore_eq, advance_goes, instrBytes_thumb (by exact ht)]
  rfl

end

end Sys2Proof.Machine

open Sys2Proof.Machine

/-- Settles O33: every load is a load of a low register, which is never r15, and every store a store of one. -/
theorem thumbSingleTransfers : Obligations.ThumbSingleTransfers := by
  intro i s ht
  refine ⟨fun f hf => ?_, fun w rd a hf => ?_⟩
  · rw [exec_thumbLoad ht hf, thumbLoad_eq ht]
  · rw [exec_thumbStore hf, thumbStore_eq ht]
end

section
/-! The Thumb branches (46_thumb_branch.md R500, R502 to R504, 44_thumb_alu.md R462): where they go and what they cost. -/

open Sys2Proof

namespace Sys2Proof.Machine

section
variable {s : State} (ht : s.cpsr.t = true)
include ht

/-- In Thumb state a branch's target is halfword-aligned (R35). -/
theorem branchTo_charge_thumb (n : Nat) (v : Word) :
    (s.charge n).branchTo v = s.goes (v &&& 0xFFFFFFFE) (n + s.refillAt (v &&& 0xFFFFFFFE)) := by
  rw [branchTo_charge, ht]
  rfl

/-- An offset counts from r15, which reads as pc + 4 in Thumb state (R500, R502, R503). -/
theorem pcAhead_add_branchOffset_thumb {n : Nat} (off : BitVec n) (unit : Nat) :
    s.pcAhead + branchOffset off unit = BitVec.ofInt 32 ((s.pc.toNat : Int) + 4 + unit * off.toInt) := by
  rw [pcAhead_thumb ht]
  exact add_branchOffset s.pc 4 off unit

/-- B: Sc, and the refill at r15 plus twice the offset (R502, R880). -/
theorem exec_thumbB (off : BitVec 11) :
    exec (.thumbB off) s =
      .next ((s.charge s.sc).branchTo (BitVec.ofInt 32 ((s.pc.toNat : Int) + 4 + 2 * off.toInt))) := by
  have htarget : s.pcAhead + branchOffset off 2 = BitVec.ofInt 32 ((s.pc.toNat : Int) + 4 + 2 * off.toInt) :=
    pcAhead_add_branchOffset_thumb ht off 2
  rw [← htarget]
  rfl

/-- B<cond>: where its condition holds a branch as B, else the next instruction (R500). -/
theorem exec_thumbBcond (c : Cond) (off : BitVec 8) :
    exec (.thumbBcond c off) s =
      .next (if condPassed c s.cpsr then
        (s.charge s.sc).branchTo (BitVec.ofInt 32 ((s.pc.toNat : Int) + 4 + 2 * off.toInt))
      else s.goes (s.pc + 2) s.sc) := by
  have htarget : s.pcAhead + branchOffset off 2 = BitVec.ofInt 32 ((s.pc.toNat : Int) + 4 + 2 * off.toInt) :=
    pcAhead_add_branchOffset_thumb ht off 2
  have hnext : s.skip = s.goes (s.pc + 2) s.sc := by rw [skip_goes, instrBytes_thumb ht]
  rw [← htarget, ← hnext, apply_ite Host.Outcome.next]
  rfl

/-- The first half of BL is a write of r14 (R503). -/
theorem exec_thumbBlPrefix (off : BitVec 11) :
    exec (.thumbBlPrefix off) s =
      .next ((s.charge s.sc).writeResult 14 (BitVec.ofInt 32 ((s.pc.toNat : Int) + 4 + 4096 * off.toInt))) := by
  have hlink : s.pcAhead + branchOffset off 4096 = BitVec.ofInt 32 ((s.pc.toNat : Int) + 4 + 4096 * off.toInt) :=
    pcAhead_add_branchOffset_thumb ht off 4096
  rw [← hlink]
  rfl

/-- The second half of BL branches from the old r14 and leaves the return address, with bit 0 set (R504). -/
theorem exec_thumbBlSuffix (off : BitVec 11) :
    exec (.thumbBlSuffix off) s =
      .next (((s.withReg s.cpsr.m 14 ((s.pc + 2) ||| 1)).charge s.sc).branchTo
        (s.readReg 14 + BitVec.ofNat 32 (2 * off.toNat))) := by
  rw [← zeroExtend_mul_ofNat off 2, ← instrBytes_thumb ht]
  rfl

/-- BX reads r15 as pc + 4 (R462). -/
theorem exec_thumbBx (rs : Reg) :
    exec (.thumbBx rs) s = .next ((s.charge s.sc).exchangeTo (if rs = 15 then s.pc + 4 else s.readReg rs)) := by
  rw [← pcAhead_thumb ht, ite_pcAhead_readReg]
  rfl

end

end Sys2Proof.Machine

open Sys2Proof.Machine

/-- Settles O31: B and B<cond> go where r15 plus the offset points; the halves of BL write r14, and the second one's
branch is priced as without that write; BX goes on under the T it takes. -/
theorem thumbBranches : Obligations.ThumbBranches := by
  intro s ht
  refine ⟨fun c off => ?_, fun off => ?_, fun off => ?_, fun off => ?_, fun rs => ?_⟩
  · rw [exec_thumbBcond ht, branchTo_charge_thumb ht]
  · rw [exec_thumbB ht, branchTo_charge_thumb ht]
  · rw [exec_thumbBlPrefix ht, writeResult_charge, instrBytes_thumb ht]
    rfl
  · have hlink : (s.withReg s.cpsr.m 14 ((s.pc + 2) ||| 1)).cpsr.t = true := by rw [withReg_cpsr, ht]
    rw [exec_thumbBlSuffix ht, branchTo_charge_thumb hlink, refillAt_withReg]
  · rw [exec_thumbBx ht, exchangeTo_charge]
    rfl
end

section
/-! A software interrupt under HLE: what it enters its service with, and how a service returns (47_swi_hle.md R520,
R521, R556). -/

open Sys2Proof

namespace Sys2Proof.Machine

@[simp] theorem hleSaved_dev (s : State) : (hleSaved s).dev = s.dev := withReg_dev ..
@[simp] theorem hleSaved_cpsr (s : State) : (hleSaved s).cpsr = s.cpsr := withReg_cpsr ..
@[simp] theorem hleSaved_pc (s : State) : (hleSaved s).pc = s.pc := withReg_pc ..
@[simp] theorem hleSaved_stepCycles (s : State) : (hleSaved s).stepCycles = s.stepCycles := withReg_stepCycles ..
@[simp] theorem hleSaved_freeCount (s : State) : (hleSaved s).freeCount = s.freeCount := by
  obtain ⟨_, h⟩ := withReg_frame s modeSvc 14 (s.pc + s.instrBytes)
  simp [hleSaved, h]

theorem hleEnter_eq_charge (s : State) : hleEnter (s.pc + s.instrBytes) s = (hleSaved s).charge s.sc := by
  rw [hleEnter_eq, withReg_charge]
  rfl

/-- A software interrupt whose condition passes runs its service after the entry, Sc charged. -/
theorem exec_swi_hle {i : Instr} {s : State} {n : Nat} (hn : swiNumber i = some n) (hrun : mayRun i s)
    (hhle : s.dev.params.swiMode = .hle) :
    exec i s = runService n (s.pc + s.instrBytes) ((hleSaved s).charge s.sc) := by
  have hcall : softwareInterrupt n s = runService n (s.pc + s.instrBytes) ((hleSaved s).charge s.sc) := by
    rw [softwareInterrupt, hhle, ← hleEnter_eq_charge]
    rfl
  cases i with
  | armSwi c comment =>
    cases hn
    exact (whenCond_passed (hrun c rfl) _).trans hcall
  | thumbSwi value =>
    cases hn
    exact hcall
  | _ => cases hn

/-- Names are distinct registers in whatever modes (R32). -/
theorem bankIndex_ne_of_name_ne (m n : BitVec 5) {i j : Reg} (hi : i ≠ 15) (hj : j ≠ 15) (h : i ≠ j) :
    bankIndex m i ≠ bankIndex n j := fun he =>
  h ((nameOfBank_bankIndex m i hi).symm.trans ((congrArg nameOfBank he).trans (nameOfBank_bankIndex n j hj)))

/-- The entry's write of r14_svc is seen under the name r14 alone. -/
theorem readReg_hleSaved (s : State) (n : Nat) {r : Reg} (hr : r ≠ 14) :
    ((hleSaved s).charge n).readReg r = s.readReg r := by
  by_cases h15 : r = 15
  · subst h15
    simp [State.readReg, State.pcAhead]
  · have hother := bankIndex_ne_of_name_ne modeSvc s.cpsr.m (by decide) h15 hr.symm
    simp only [State.readReg, if_neg h15, State.charge_cpsr, hleSaved_cpsr]
    exact (bankedReg_withReg s modeSvc _ 14 r _).trans (if_neg fun h => hother h.2)

/-- The cost of an access depends on WAITCNT alone (20_memory.md R130, R131). -/
theorem accessCost_congr {d e : Devices} (h : e.waitcnt = d.waitcnt) (w : Width) (a : Word) (q : Access) :
    accessCost e w a q = accessCost d w a q := by
  simp only [accessCost, h]

theorem refillAt_congr {s t : State} (hp : t.cpsr = s.cpsr) (hw : t.dev.waitcnt = s.dev.waitcnt) (pc : Word) :
    t.refillAt pc = s.refillAt pc := by
  simp only [State.refillAt, State.codeWidth, State.instrBytes, hp, accessCost_congr hw]

/-- The return of a service that has cost k cycles of its own. -/
theorem svcReturn_charge {s t : State} (hp : t.cpsr = s.cpsr) (hw : t.dev.waitcnt = s.dev.waitcnt)
    (hc : t.stepCycles = s.stepCycles) (k : Nat) :
    svcReturn (s.pc + s.instrBytes) (t.charge (s.sc + k)) = .next ((hleDone s t).charge k) := by
  rw [svcReturn_eq, refillAt_congr (t := t.charge _) hp hw]
  simp only [State.goes, State.charge, hleDone, hc, Nat.add_assoc, Nat.add_comm k]

/-- The return of a service that has cost nothing of its own. -/
theorem svcReturn_charge_sc {s t : State} (hp : t.cpsr = s.cpsr) (hw : t.dev.waitcnt = s.dev.waitcnt)
    (hc : t.stepCycles = s.stepCycles) :
    svcReturn (s.pc + s.instrBytes) (t.charge s.sc) = .next (hleDone s t) := svcReturn_charge hp hw hc 0

/-- A suspended service stays on its instruction (R529). -/
theorem svcStay_eq (s : State) : svcStay s = .next (s.goes s.pc (s.refillAt s.pc)) := rfl

/-- The return of a service that has done nothing. -/
theorem svcReturn_hleSaved (s : State) :
    svcReturn (s.pc + s.instrBytes) ((hleSaved s).charge s.sc) = .next (hleDone s (hleSaved s)) :=
  svcReturn_charge_sc (hleSaved_cpsr s) (congrArg Devices.waitcnt (hleSaved_dev s)) (hleSaved_stepCycles s)

/-- The return of a service that has written r0. -/
theorem svcReturn_setReg_hleSaved (s : State) (v : Word) :
    svcReturn (s.pc + s.instrBytes) (((hleSaved s).charge s.sc).setReg 0 v) =
      .next (hleDone s ((hleSaved s).withReg s.cpsr.m 0 v)) := by
  rw [setReg_withReg, State.charge_cpsr, hleSaved_cpsr, withReg_charge]
  exact svcReturn_charge_sc (by simp) (by simp) (by simp)

end Sys2Proof.Machine
end

section
/-! Div, DivArm and Sqrt (47_swi_hle.md R529 to R531). -/

open Sys2Proof

namespace Sys2Proof.Machine

/-- A division rounding toward zero leaves a remainder below the denominator, with the numerator's sign (R529). -/
theorem tdiv_remainder (num : Int) {den : Int} (hden : den ≠ 0) :
    (num - num.tdiv den * den).natAbs < den.natAbs ∧
      (num - num.tdiv den * den = 0 ∨ (num - num.tdiv den * den < 0 ↔ num < 0)) := by
  have hrem : num - num.tdiv den * den = num.tmod den := by rw [Int.tmod_def, Int.mul_comm]
  rw [hrem]
  refine ⟨?_, ?_⟩
  · rw [Int.natAbs_tmod]
    exact Nat.mod_lt _ (Int.natAbs_pos.mpr hden)
  · obtain hnum | hnum := lt_or_ge num 0
    · have := Int.tmod_nonneg (a := -num) den (by omega)
      rw [Int.neg_tmod] at this
      omega
    · have := Int.tmod_nonneg den hnum
      omega

theorem divide_hleSaved_zero (ret num : Word) (s : State) :
    divide ret num 0 ((hleSaved s).charge s.sc) = .next ((hleSaved s).goes s.pc (s.sc + s.refillAt s.pc)) := by
  rw [divide, if_pos rfl, svcStay_eq, State.charge_pc, hleSaved_pc, goes_charge,
    refillAt_congr (t := (hleSaved s).charge s.sc) (hleSaved_cpsr s) (congrArg Devices.waitcnt (hleSaved_dev s))]

theorem divide_hleSaved (num : Word) {den : Word} (s : State) (hden : den ≠ 0) :
    divide (s.pc + s.instrBytes) num den ((hleSaved s).charge s.sc) =
      let q := num.toInt.tdiv den.toInt
      .next (hleDone s
        ((((hleSaved s).withReg s.cpsr.m 0 (BitVec.ofInt 32 q)).withReg s.cpsr.m 1
          (BitVec.ofInt 32 (num.toInt - q * den.toInt))).withReg s.cpsr.m 3 (BitVec.ofNat 32 q.natAbs))) := by
  rw [divide, if_neg hden]
  simp only [setReg_withReg, State.charge_cpsr, withReg_cpsr, hleSaved_cpsr, withReg_charge]
  exact svcReturn_charge_sc (by simp) (by simp) (by simp)

/-- The search keeps r * r ≤ v < (r + 2 ^ n) * (r + 2 ^ n), bit by bit, and so ends at the integer square root
(R531). -/
theorem isqrtFrom_spec (n v r : Nat) (hlow : r * r ≤ v) (hhigh : v < (r + 2 ^ n) * (r + 2 ^ n)) :
    isqrtFrom n v r * isqrtFrom n v r ≤ v ∧ v < (isqrtFrom n v r + 1) * (isqrtFrom n v r + 1) := by
  induction n generalizing r with
  | zero => exact ⟨hlow, hhigh⟩
  | succ n ih =>
    rw [isqrtFrom]
    split
    · next h => exact ih _ h (by rwa [Nat.add_assoc, ← Nat.two_mul, ← Nat.pow_succ'])
    · next h => exact ih r hlow (Nat.not_le.mp h)

end Sys2Proof.Machine

open Sys2Proof.Machine

/-- Settles O38: the quotient's remainder is that of a division toward zero, and the root's bounds hold bit by bit. -/
theorem arithmeticServices : Obligations.ArithmeticServices := by
  intro i s n hn hrun hhle
  rw [exec_swi_hle hn hrun hhle]
  refine ⟨fun hdiv => ?_, fun h8 => ?_⟩
  · intro num den
    have hservice : runService n (s.pc + s.instrBytes) ((hleSaved s).charge s.sc) =
        divide (s.pc + s.instrBytes) num den ((hleSaved s).charge s.sc) := by
      have h0 := readReg_hleSaved s s.sc (r := 0) (by decide)
      have h1 := readReg_hleSaved s s.sc (r := 1) (by decide)
      obtain rfl | rfl := hdiv
      · show divide _ (State.readReg _ 0) (State.readReg _ 1) _ = _
        rw [h0, h1]
        rfl
      · show divide _ (State.readReg _ 1) (State.readReg _ 0) _ = _
        rw [h0, h1]
        rfl
    rw [hservice]
    refine ⟨fun hden => by rw [hden, divide_hleSaved_zero], fun hden => ?_⟩
    have hden' : den.toInt ≠ 0 := fun h => hden (BitVec.eq_of_toInt_eq h)
    obtain ⟨hlt, hsign⟩ := tdiv_remainder num.toInt hden'
    exact ⟨_, _, (add_sub_cancel _ _).symm, hlt, hsign, divide_hleSaved num s hden⟩
  · subst h8
    have hv := (s.readReg 0).isLt
    obtain ⟨hlow, hhigh⟩ := isqrtFrom_spec 16 (s.readReg 0).toNat 0 (Nat.zero_le _) hv
    refine ⟨_, Nat.mul_self_lt_mul_self_iff.mp (Nat.lt_of_le_of_lt hlow hv), hlow, hhigh, ?_⟩
    show svcSqrt _ _ = _
    rw [svcSqrt, readReg_hleSaved s s.sc (by decide), svcReturn_setReg_hleSaved]
end

section
/-! Services that return with little done: unlisted numbers, Halt, Stop, CustomHalt, GetBiosChecksum, the sound services
and MultiBoot (47_swi_hle.md R524, R525, R536, R550, R552, R554, R555). -/

open Sys2Proof

namespace Sys2Proof.Machine

variable {ret : Word} {s : State} {n : Nat}

/-! ### Which service a number names -/

theorem runService_unlisted (h : 0x2B ≤ n) : runService n ret s = svcReturn ret s := by
  obtain ⟨k, rfl⟩ := Nat.exists_eq_add_of_le' h
  rfl

theorem runService_sound
    (h : n ∈ [0x1A, 0x1B, 0x1C, 0x1D, 0x1E, 0x20, 0x21, 0x22, 0x23, 0x24, 0x28, 0x29, 0x2A]) :
    runService n ret s = svcSound ret s := by
  fin_cases h <;> rfl

/-! ### Halts -/

/-- A service that only enters a halt. -/
theorem svcReturn_enterHalt_hleSaved (s : State) (k : HaltKind) :
    svcReturn (s.pc + s.instrBytes) (((hleSaved s).charge s.sc).enterHalt k) =
      .next (hleDone s ((hleSaved s).setRun (.halted k))) :=
  svcReturn_charge_sc (t := (hleSaved s).setRun (.halted k)) (by simp) (by simp) (by simp)

theorem getLsbD_loHalf_doubledByte (v : Word) : (loHalf (doubledByte v)).getLsbD 15 = v.getLsbD 7 := by
  have htop (b : Nat) (h : b < 256) : b * 257 / 2 ^ 15 = b / 2 ^ 7 := by omega
  rw [doubledByte_eq, loHalf, BitVec.getLsbD_ofNat, BitVec.toNat_ofNat, Nat.mod_eq_of_lt (by omega), BitVec.getLsbD]
  simp only [Nat.testBit_eq_decide_div_mod_eq, htop _ (Nat.mod_lt _ (by decide : 0 < 256))]
  rw [show v.toNat % 256 / 2 ^ 7 % 2 = v.toNat / 2 ^ 7 % 2 by omega]
  rfl

/-- A byte write to HALTCNT changes the run state, by bit 7 (60_exceptions.md R641). -/
theorem busWrite_haltcnt (d : Devices) (v : Word) :
    busWrite d .byte 0x04000301 v =
      notePort [0x180] { d with run := .halted (if v.getLsbD 7 then .stop else .halt) } := by
  rw [← getLsbD_loHalf_doubledByte]
  rfl

theorem svcCustomHalt_hleSaved (s : State) :
    svcCustomHalt (s.pc + s.instrBytes) ((hleSaved s).charge s.sc) =
      let u := (hleSaved s).setRun (.halted (if (s.readReg 2).getLsbD 7 then .stop else .halt))
      .next ((hleDone s { u with dev := notePort [0x180] u.dev }).charge 1) := by
  extract_lets u
  have hwrite : ((Svc.start ((hleSaved s).charge s.sc)).write .byte 0x04000301 (s.readReg 2)).st =
      State.charge { u with dev := notePort [0x180] u.dev } (s.sc + 1) := by
    show State.charge { hleSaved s with dev := busWrite (hleSaved s).dev .byte 0x04000301 (s.readReg 2) } (s.sc + 1) = _
    rw [busWrite_haltcnt]
    rfl
  rw [svcCustomHalt, readReg_hleSaved s s.sc (by decide), hwrite]
  exact svcReturn_charge (by simp [u]) (by simp [u]) (by simp [u]) 1

/-! ### Services whose effect is OPEN -/

theorem BusRun.spsrSvc {s t : State} (h : BusRun s t) : t.spsrSvc = s.spsrSvc := by
  obtain ⟨_, _, _, rfl⟩ := h.frame
  rfl

/-- An OPEN service returns as R520 says, with one free value drawn; the registers and the devices are free. -/
theorem svcOpen_eq_next (ret : Word) (s : State) :
    ∃ t, svcOpen ret s = .next t ∧ t.pc = ret ∧ t.cpsr = s.cpsr ∧ t.spsrSvc = s.spsrSvc ∧
      t.biosLatch = 0xE3A02004 ∧ t.freeCount = s.freeCount + 1 := by
  have hrun := BusRun.openAccesses (v := Svc.start s) (Config.openAccesses s.freeCount) .refl
  unfold svcOpen
  dsimp only
  generalize (Config.openAccesses s.freeCount).foldl Svc.openAccess (Svc.start s) = v at hrun
  obtain ⟨_, hr⟩ := writeOpenRegs_frame (Config.openRegs s.freeCount) v.st
  rw [hr]
  refine ⟨_, rfl, rfl, ?_, ?_, rfl, rfl⟩
  · exact hrun.cpsr
  · exact hrun.spsrSvc

end Sys2Proof.Machine

open Sys2Proof.Machine

/-- Settles O36: each number's service is the entry, what the service names, and the common return. -/
theorem servicesReturn : Obligations.ServicesReturn := by
  intro i s n hn hrun hhle sound drawn
  rw [exec_swi_hle hn hrun hhle]
  have hparams : ((hleSaved s).charge s.sc).dev.params = s.dev.params := congrArg Devices.params (hleSaved_dev s)
  refine ⟨fun h => ?_, fun h => ?_, fun h => ?_, fun h => ?_, fun h => ?_, fun h hdefault => ?_, fun h hdefault => ?_,
    fun h => ?_⟩
  · rw [runService_unlisted h, svcReturn_hleSaved]
  · rw [h]
    exact svcReturn_enterHalt_hleSaved s .halt
  · rw [h]
    exact svcReturn_enterHalt_hleSaved s .stop
  · rw [h]
    exact svcReturn_setReg_hleSaved s 0xBAAE187F
  · rw [h]
    exact svcCustomHalt_hleSaved s
  · rw [runService_sound h, svcSound, hparams, hdefault]
    exact svcReturn_hleSaved s
  · rw [h]
    show svcMultiBoot _ _ = _
    rw [svcMultiBoot, hparams, hdefault]
    exact svcReturn_setReg_hleSaved s 1
  · have hopen : runService n (s.pc + s.instrBytes) ((hleSaved s).charge s.sc) =
        svcOpen (s.pc + s.instrBytes) ((hleSaved s).charge s.sc) := by
      obtain ⟨h, hdraw⟩ | ⟨rfl, hdraw⟩ := h
      · rw [runService_sound h, svcSound, hparams, hdraw]
      · show svcMultiBoot _ _ = _
        rw [svcMultiBoot, hparams, hdraw]
    obtain ⟨t, hnext, hpc, hcpsr, hspsr, hlatch, hfree⟩ :=
      svcOpen_eq_next (s.pc + s.instrBytes) ((hleSaved s).charge s.sc)
    exact ⟨t, hopen.trans hnext, hpc, hcpsr.trans (hleSaved_cpsr s), hspsr, hlatch,
      hfree.trans (congrArg (· + 1) (hleSaved_freeCount s))⟩
end

section
/-! SoftReset (47_swi_hle.md R522). -/

open Sys2Proof

namespace Sys2Proof.Machine

/-! ### The area -/

/-- In the first mirror of internal work RAM a byte's address is its canonical address (20_memory.md R107). -/
theorem ramKey_iwram_base {a : Nat} (h : 0x03000000 ≤ a ∧ a < 0x03008000) : ramKey a = some a := by
  have hr : regionOf a = .iwram := (regionOf_eq_iff .iwram a).mpr ⟨h.1, by omega⟩
  rw [ramKey_iwram hr]
  exact congrArg some (by omega)

/-- Clearing the bytes of internal work RAM from b up to e clears these and leaves every other byte. -/
theorem cellRead_clearBytes {n b e : Nat} {a : Word} {v : Svc} (hwf : v.st.dev.mem.wf = true) (ha : a.toNat = b)
    (hend : b + n = e) (hlo : 0x03000000 ≤ b) (hhi : e ≤ 0x03008000) (k : Nat) :
    cellRead (v.clearBytes n a).st.dev.mem k = if b ≤ k ∧ k < e then 0 else cellRead v.st.dev.mem k := by
  induction n generalizing a b v with
  | zero => exact (if_neg (by omega)).symm
  | succ n ih =>
    have hnext : (a + 1).toNat = b + 1 := by
      rw [BitVec.toNat_add, ha]
      simp
      omega
    have hkey : ramKey a.toNat = some b := ha ▸ ramKey_iwram_base (by omega)
    have hr : regionOf a.toNat = .iwram := (regionOf_eq_iff .iwram _).mpr (by simp only [Region.spans]; omega)
    have hwrite : (v.write .byte a 0).st.dev = writeCells v.st.dev .byte b 0 := by
      refine (busWrite_ramKey hkey fun _ => .inr hr).trans ?_
      rw [Width.bytes, Nat.div_one, Nat.mul_one]
      rfl
    have hbyte : byteOf 0 (k - b) = 0 := by simp [byteOf]
    have hwf' : (v.write .byte a 0).st.dev.mem.wf = true := hwrite ▸ writeCells_wf _ _ _ hwf
    rw [Svc.clearBytes, ih hwf' hnext (by omega) (by omega), hwrite, cellRead_writeCells hwf, hbyte, ← ite_or]
    exact if_congr (by simp only [Width.bytes]; omega) rfl rfl

/-- A byte of RAM reads as zero exactly where its cell is zero. -/
theorem busRead_byte_eq_zero_iff {d : Devices} {view : BusView} {a : Word} {key : Nat} (h : ramKey a.toNat = some key) :
    busRead d view .byte a = 0 ↔ cellRead d.mem key = 0 := by
  have halign : alignTo .byte a.toNat = a.toNat := by simp [alignTo, Width.bytes]
  have hread : busRead d view .byte a = wordOfBytes 0 0 0 (cellRead d.mem key) := by
    simp only [busRead, halign, busByte_ramKey h]
  rw [hread, ← BitVec.toNat_inj, wordOfBytes_toNat, ← BitVec.toNat_inj]
  simp

/-- The bus accesses of SoftReset: the read of the flag byte, then the clears. -/
def softResetRun (s : State) : Svc := ((Svc.start s).read .byte 0x03007FFA).2.clearBytes 0x200 0x03007E00

theorem busRun_softResetRun (s : State) : BusRun s (softResetRun s).st := by
  have hstart : BusRun s (Svc.start s).st := .refl
  exact (hstart.read .byte 0x03007FFA).clearBytes 0x200 0x03007E00

theorem cellRead_softResetRun {s : State} (hok : s.MemoryOk) (k : Nat) :
    cellRead (softResetRun s).st.dev.mem k =
      if 0x03007E00 ≤ k ∧ k < 0x03008000 then 0 else cellRead s.dev.mem k := by
  rw [softResetRun]
  exact cellRead_clearBytes (v := ((Svc.start s).read .byte 0x03007FFA).2) hok rfl rfl (by decide) (by decide) k

theorem runService_softReset (ret : Word) (s : State) : runService 0 ret s = svcSoftReset s := rfl

/-- SoftReset goes where the flag byte says, as it was before the area is cleared. -/
theorem svcSoftReset_eq (s : State) :
    svcSoftReset s =
      svcReturn (if cellRead s.dev.mem 0x03007FFA = 0 then 0x08000000 else 0x02000000)
        ((softResetRegs (softResetRun s).st).setFlags (Psr.ofMode modeSys)) := by
  have hzero : ((Svc.start s).read .byte 0x03007FFA).1 = 0 ↔ cellRead s.dev.mem 0x03007FFA = 0 :=
    busRead_byte_eq_zero_iff (ramKey_iwram_base (by decide))
  simp only [svcSoftReset, softResetRun, hzero]

/-! ### The registers -/

theorem clearRegs_cpsr (n : Nat) (s : State) : (clearRegs n s).cpsr = s.cpsr := by
  induction n generalizing s with
  | zero => rfl
  | succ n ih => exact (ih _).trans (State.setReg_cpsr ..)

/-- Clearing the first n names of the current mode clears these and no other of its names. -/
theorem bankedReg_clearRegs {n : Nat} (hn : n ≤ 15) (s : State) {r : Reg} (hr : r ≠ 15) :
    (clearRegs n s).bankedReg s.cpsr.m r = if r.val < n then 0 else s.bankedReg s.cpsr.m r := by
  induction n generalizing s with
  | zero => rfl
  | succ n ih =>
    have hval : (Fin.ofNat 16 n : Reg).val = n := Nat.mod_eq_of_lt (by omega)
    have hne : (Fin.ofNat 16 n : Reg) ≠ 15 := fun h => by
      have := congrArg Fin.val h
      rw [hval] at this
      simp at this
      omega
    have hstep := ih (by omega) (s.setReg (Fin.ofNat 16 n) 0)
    rw [State.setReg_cpsr] at hstep
    rw [clearRegs, hstep, State.setReg, bankedReg_setBankedReg _ _ _ _ _ hne]
    by_cases hrn : r = Fin.ofNat 16 n
    · rw [if_pos (congrArg _ hrn), hrn, hval, if_pos (Nat.lt_succ_self n), ite_self]
    · have hrv : r.val ≠ n := fun h => hrn (Fin.ext (h.trans hval.symm))
      rw [if_neg (bankIndex_ne hr hne hrn)]
      simp only [show (r.val < n + 1) = (r.val < n) from propext (by omega)]

@[simp] theorem bankedReg_setSpsr (s : State) (m n : BitVec 5) (p : Psr) (r : Reg) :
    (s.setSpsr m p).bankedReg n r = s.bankedReg n r := by
  simp only [State.bankedReg, State.setSpsr_regs]

/-- What each register holds after SoftReset's writes, the last one first (R522 step 3). -/
theorem bankedReg_softResetRegs (s : State) (m : BitVec 5) (r : Reg) :
    (softResetRegs s).bankedReg m r =
      if bankIndex m r = bankIndex modeIrq 14 then 0
      else if bankIndex m r = bankIndex modeSvc 14 then 0
      else if bankIndex m r = bankIndex modeSvc 13 then 0x03007FE0
      else if bankIndex m r = bankIndex modeIrq 13 then 0x03007FA0
      else if bankIndex m r = bankIndex modeUsr 13 then 0x03007F00
      else (clearRegs 13 s).bankedReg m r := by
  have h13 : (13 : Reg) ≠ 15 := by decide
  have h14 : (14 : Reg) ≠ 15 := by decide
  rw [softResetRegs, bankedReg_setSpsr, bankedReg_setSpsr, bankedReg_setBankedReg _ _ _ _ _ h14,
    bankedReg_setBankedReg _ _ _ _ _ h14, bankedReg_setBankedReg _ _ _ _ _ h13,
    bankedReg_setBankedReg _ _ _ _ _ h13, bankedReg_setBankedReg _ _ _ _ _ h13]

/-- SoftReset clears r0 to r12 of the caller's bank. -/
theorem bankedReg_softResetRegs_low (s : State) {r : Reg} (hr : r < 13) :
    (softResetRegs s).bankedReg s.cpsr.m r = 0 := by
  have hne {i : Reg} (hi : 13 ≤ i) : r ≠ i := (lt_of_lt_of_le hr hi).ne
  have h15 : r ≠ 15 := hne (by decide)
  have h13 (n : BitVec 5) := bankIndex_ne_of_name_ne s.cpsr.m n h15 (by decide) (hne (i := 13) (by decide))
  have h14 (n : BitVec 5) := bankIndex_ne_of_name_ne s.cpsr.m n h15 (by decide) (hne (i := 14) (by decide))
  simp only [bankedReg_softResetRegs, h13, h14, if_false]
  exact (bankedReg_clearRegs (by decide) s h15).trans (if_pos hr)

/-- SoftReset sets the stack pointers, and the link registers of svc and irq. -/
theorem bankedReg_softResetRegs_stack (s : State) :
    (softResetRegs s).bankedReg modeUsr 13 = 0x03007F00 ∧ (softResetRegs s).bankedReg modeIrq 13 = 0x03007FA0 ∧
      (softResetRegs s).bankedReg modeSvc 13 = 0x03007FE0 ∧ (softResetRegs s).bankedReg modeSvc 14 = 0 ∧
      (softResetRegs s).bankedReg modeIrq 14 = 0 := by
  simp only [bankedReg_softResetRegs]
  exact ⟨rfl, rfl, rfl, rfl, rfl⟩

theorem softResetRegs_spsr (s : State) :
    (softResetRegs s).spsrSvc = Psr.ofMode 0 ∧ (softResetRegs s).spsrIrq = Psr.ofMode 0 := ⟨rfl, rfl⟩

end Sys2Proof.Machine

open Sys2Proof.Machine

/-- Settles O37: the byte at 0x03007FFA is read before the area is cleared; the registers are written after it, under
distinct physical registers. -/
theorem softResetService : Obligations.SoftResetService := by
  intro i s hn hrun hhle hok
  rw [exec_swi_hle hn hrun hhle]
  have hdev : ((hleSaved s).charge s.sc).dev = s.dev := hleSaved_dev s
  have hcpsr : ((hleSaved s).charge s.sc).cpsr = s.cpsr := hleSaved_cpsr s
  generalize (hleSaved s).charge s.sc = u at hdev hcpsr
  have hrunCpsr : (softResetRun u).st.cpsr = s.cpsr := (busRun_softResetRun u).cpsr.trans hcpsr
  have hcells := cellRead_softResetRun (s := u) (by rw [State.MemoryOk, hdev]; exact hok)
  rw [hdev] at hcells
  rw [runService_softReset, svcSoftReset_eq, svcReturn_eq, hdev]
  generalize (softResetRun u).st = v at hrunCpsr hcells
  obtain ⟨hsvc, hirq⟩ := softResetRegs_spsr v
  have hword : psrWord (Psr.ofMode modeSys) = 0x1F := by decide
  refine ⟨_, rfl, rfl, hword, fun r hr => ?_, bankedReg_softResetRegs_stack v,
    ⟨congrArg psrWord hsvc, congrArg psrWord hirq⟩, fun k => ?_⟩
  · rw [← hrunCpsr]
    exact bankedReg_softResetRegs_low v hr
  · rw [← hcells, ← softResetRegs_dev v]
    rfl
end

section
/-! What an HLE service does to the devices (47_swi_hle.md R520 to R556): bus writes, and a few registers set directly. A
write of an OPEN service keeps the requests in IF (60_exceptions.md R626), and no other write touches IF besides the bus,
so that what these keep, every service keeps. -/

open Sys2Proof

namespace Sys2Proof.Machine

/-- From devices to devices by what a service may do to them. -/
inductive ServiceRun (d : Devices) : Devices → Prop where
  | refl : ServiceRun d d
  | bus {e : Devices} (h : ServiceRun d e) (w : Width) (a x : Word) : ServiceRun d (busWrite e w a x)
  | busOpen {e : Devices} (h : ServiceRun d e) (w : Width) (a x : Word) :
      ServiceRun d { busWrite e w a x with iflag := (busWrite e w a x).iflag ||| e.iflag }
  | halt {e : Devices} (h : ServiceRun d e) (k : HaltKind) : ServiceRun d { e with run := .halted k }
  | enable {e : Devices} (h : ServiceRun d e) : ServiceRun d (notePort [0x104] { e with ime := 1 })
  | bias {e : Devices} (h : ServiceRun d e) (sound : Vector Half 32) :
      ServiceRun d (notePort [0x044] { e with sound := sound })
  | clear {e : Devices} (h : ServiceRun d e) (flags : Word) : ServiceRun d (clearRegisters flags e)
  | reset {e : Devices} (h : ServiceRun d e) : ServiceRun d (resetDevices e)

namespace ServiceRun

variable {d : Devices} {v : Svc}

/-! ### Copying, filling and affine set-up

A service's read changes no device, and its write is a bus write. -/

theorem read (h : ServiceRun d v.st.dev) (w : Width) (a : Word) : ServiceRun d (v.read w a).2.st.dev := h

theorem write (h : ServiceRun d v.st.dev) (w : Width) (a x : Word) : ServiceRun d (v.write w a x).st.dev :=
  h.bus w a x

theorem enterHalt {s : State} (h : ServiceRun d s.dev) (k : HaltKind) : ServiceRun d (s.enterHalt k).dev := h.halt k

theorem openAccess (h : ServiceRun d v.st.dev) (a : OpenAccess) : ServiceRun d (v.openAccess a).st.dev := by
  obtain ⟨n, e | ⟨w, e⟩⟩ := openAccess_cases v a <;> rw [e]
  · exact h
  · exact h.busOpen w a.addr a.value

theorem openAccesses (l : List OpenAccess) (h : ServiceRun d v.st.dev) :
    ServiceRun d (l.foldl Svc.openAccess v).st.dev := by
  induction l generalizing v with
  | nil => exact h
  | cons a l ih => exact ih (h.openAccess a)

theorem fillWords (n : Nat) (a x : Word) (h : ServiceRun d v.st.dev) : ServiceRun d (v.fillWords n a x).st.dev := by
  induction n generalizing a v with
  | zero => exact h
  | succ n ih => exact ih _ (h.write _ _ _)

theorem clearBytes (n : Nat) (a : Word) (h : ServiceRun d v.st.dev) : ServiceRun d (v.clearBytes n a).st.dev := by
  induction n generalizing a v with
  | zero => exact h
  | succ n ih => exact ih _ (h.write _ _ _)

theorem clearArea (flags : Word) (i : Nat) (base : Word) (words : Nat) (h : ServiceRun d v.st.dev) :
    ServiceRun d (clearArea flags i base words v).st.dev := by
  unfold Machine.clearArea
  split
  · exact h.fillWords _ _ _
  · exact h

theorem clearBiosIf (x : Half) (h : ServiceRun d v.st.dev) : ServiceRun d (clearBiosIf x v).st.dev :=
  (h.read _ _).write _ _ _

theorem copyUnits (n : Nat) (w : Width) (src dst : Word) (h : ServiceRun d v.st.dev) :
    ServiceRun d (v.copyUnits n w src dst).st.dev := by
  induction n generalizing src dst v with
  | zero => exact h
  | succ n ih => exact ih _ _ ((h.read _ _).write _ _ _)

theorem fillUnits (n : Nat) (w : Width) (dst x : Word) (h : ServiceRun d v.st.dev) :
    ServiceRun d (v.fillUnits n w dst x).st.dev := by
  induction n generalizing dst v with
  | zero => exact h
  | succ n ih => exact ih _ (h.write _ _ _)

/-- An entry is seven reads and six writes (47_swi_hle.md R537). -/
theorem bgAffineEntry (src dst : Word) (h : ServiceRun d v.st.dev) :
    ServiceRun d (bgAffineEntry src dst v).st.dev :=
  have hreads := ((((((h.read .word src).read .word (src + 4)).read .half (src + 8)).read .half (src + 10)).read .half
    (src + 12)).read .half (src + 14)).read .half (src + 16)
  (((((hreads.write _ _ _).write _ _ _).write _ _ _).write _ _ _).write _ _ _).write _ _ _

theorem bgAffineLoop (n : Nat) (src dst : Word) (h : ServiceRun d v.st.dev) :
    ServiceRun d (bgAffineLoop n src dst v).st.dev := by
  induction n generalizing src dst v with
  | zero => exact h
  | succ n ih => exact ih _ _ (h.bgAffineEntry src dst)

/-- An entry is three reads and four writes (R538). -/
theorem objAffineEntry (src dst stride : Word) (h : ServiceRun d v.st.dev) :
    ServiceRun d (objAffineEntry src dst stride v).st.dev :=
  have hreads := ((h.read .half src).read .half (src + 2)).read .half (src + 4)
  (((hreads.write _ _ _).write _ _ _).write _ _ _).write _ _ _

theorem objAffineLoop (n : Nat) (src dst stride : Word) (h : ServiceRun d v.st.dev) :
    ServiceRun d (objAffineLoop n src dst stride v).st.dev := by
  induction n generalizing src dst v with
  | zero => exact h
  | succ n ih => exact ih _ _ (h.objAffineEntry src dst stride)

/-! ### Bit unpacking -/

theorem unpackByte (i : UnpackInfo) (n b : Nat) {u : UnpackState} (h : ServiceRun d u.svc.st.dev) :
    ServiceRun d (unpackByte i n b u).svc.st.dev := by
  induction n generalizing b u with
  | zero => exact h
  | succ n ih =>
    refine ih _ ?_
    unfold unpackUnit
    dsimp only
    split
    · exact h.write _ _ _
    · exact h

theorem unpackLoop (i : UnpackInfo) (n : Nat) (src : Word) {u : UnpackState} (h : ServiceRun d u.svc.st.dev) :
    ServiceRun d (unpackLoop i n src u).svc.st.dev := by
  induction n generalizing src u with
  | zero => exact h
  | succ n ih => exact ih _ (unpackByte i _ _ (h.read _ _))

/-! ### Decompression -/

section
variable {u : Unzip}

theorem nextByte (h : ServiceRun d u.svc.st.dev) : ServiceRun d u.nextByte.2.svc.st.dev := h.read _ _

theorem emit (vram : Bool) (b : Byte) (h : ServiceRun d u.svc.st.dev) : ServiceRun d (u.emit vram b).svc.st.dev := by
  unfold Unzip.emit
  split
  · split
    · exact h
    · exact h.write _ _ _
  · exact h.write _ _ _

theorem lzCopy (vram : Bool) (size : Nat) (disp : Word) (n : Nat) (h : ServiceRun d u.svc.st.dev) :
    ServiceRun d (lzCopy vram size disp n u).svc.st.dev := by
  induction n generalizing u with
  | zero => exact h
  | succ n ih =>
    unfold Machine.lzCopy
    split
    · exact ih (emit vram _ (h.read _ _))
    · exact h

theorem lzBlock (vram : Bool) (size : Nat) (isRef : Bool) (h : ServiceRun d u.svc.st.dev) :
    ServiceRun d (lzBlock vram size isRef u).svc.st.dev := by
  unfold Machine.lzBlock
  dsimp only
  split
  · exact h.nextByte.nextByte.lzCopy _ _ _ _
  · exact h.nextByte.emit _ _

theorem lzLoop (vram : Bool) (size fuel k : Nat) (flags : Byte) (h : ServiceRun d u.svc.st.dev) :
    ServiceRun d (lzLoop vram size fuel k flags u).svc.st.dev := by
  induction fuel generalizing k flags u with
  | zero => exact h
  | succ fuel ih =>
    unfold Machine.lzLoop
    split
    · split
      · exact ih _ _ (h.nextByte.lzBlock _ _ _)
      · exact ih _ _ (h.lzBlock _ _ _)
    · exact h

theorem rlFill (vram : Bool) (size : Nat) (b : Byte) (n : Nat) (h : ServiceRun d u.svc.st.dev) :
    ServiceRun d (rlFill vram size b n u).svc.st.dev := by
  induction n generalizing u with
  | zero => exact h
  | succ n ih =>
    unfold Machine.rlFill
    split
    · exact ih (h.emit _ _)
    · exact h

theorem rlCopy (vram : Bool) (size n : Nat) (h : ServiceRun d u.svc.st.dev) :
    ServiceRun d (rlCopy vram size n u).svc.st.dev := by
  induction n generalizing u with
  | zero => exact h
  | succ n ih =>
    unfold Machine.rlCopy
    split
    · exact ih (h.nextByte.emit _ _)
    · exact h

theorem rlLoop (vram : Bool) (size fuel : Nat) (h : ServiceRun d u.svc.st.dev) :
    ServiceRun d (rlLoop vram size fuel u).svc.st.dev := by
  induction fuel generalizing u with
  | zero => exact h
  | succ fuel ih =>
    unfold Machine.rlLoop
    split
    · dsimp only
      split
      · exact ih (h.nextByte.nextByte.rlFill _ _ _ _)
      · exact ih (h.nextByte.rlCopy _ _ _)
    · exact h

theorem diff8Loop (vram : Bool) (n : Nat) (prev : Byte) (h : ServiceRun d u.svc.st.dev) :
    ServiceRun d (diff8Loop vram n prev u).svc.st.dev := by
  induction n generalizing prev u with
  | zero => exact h
  | succ n ih => exact ih _ (h.nextByte.emit _ _)

theorem diff16Loop (n : Nat) (prev : Half) (h : ServiceRun d u.svc.st.dev) :
    ServiceRun d (diff16Loop n prev u).svc.st.dev := by
  induction n generalizing prev u with
  | zero => exact h
  | succ n ih => exact ih _ (h.nextByte.nextByte.write _ _ _)

end

/-! ### The Huffman tree

A walk only reads. -/

theorem huffWalk_dev (g : Huff) : g.walk.2.svc.st.dev = g.svc.st.dev := by
  have hbit (h : Huff) : h.bit.2.svc.st.dev = h.svc.st.dev :=
    (huff_bit_same (h := h) (g := h) ⟨rfl, rfl, rfl, rfl, rfl, rfl⟩).2.2.1
  obtain ⟨hmore, hdone⟩ := rounds_keeps (f := Huff.round) (P := fun a => a.svc.st.dev = g.svc.st.dev)
    (Q := fun b => b.2.svc.st.dev = g.svc.st.dev) (fun a a1 ha e => by
      obtain ⟨-, _, e1⟩ | ⟨-, e1⟩ := huff_round_cases a <;> rw [e1] at e <;> cases e
      exact (hbit a).trans ha)
    (fun a b ha e => by
      unfold Huff.round at e
      dsimp only at e
      split at e <;> cases e
      exact (hbit a).trans ha) 102 rfl
  unfold Huff.walk
  split
  · next e => exact hdone _ e
  · next e => exact (hmore _ e :)
  · rfl

theorem huffEmit {g : Huff} (bitsz x : Nat) (h : ServiceRun d g.svc.st.dev) :
    ServiceRun d (g.emit bitsz x).svc.st.dev := by
  unfold Huff.emit
  dsimp only
  split
  · exact h
  · split <;> exact h.write _ _ _

theorem huffLoop {g : Huff} (root : Word) (bitsz size fuel : Nat) (h : ServiceRun d g.svc.st.dev) :
    ServiceRun d (huffLoop root bitsz size fuel g).svc.st.dev := by
  induction fuel generalizing g with
  | zero => exact h
  | succ fuel ih =>
    unfold Machine.huffLoop
    split
    · exact h
    · exact ih (huffEmit _ _ ((huffWalk_dev { g with node := root }).symm ▸ h))

end ServiceRun

/-! ### The services -/

/-- An outcome whose next state, if it has one, has devices that a service may leave. -/
def EndsServiceRun (d : Devices) (o : Result) : Prop := ∀ t, o = .next t → ServiceRun d t.dev

variable {ret : Word} {s : State}

theorem endsServiceRun_return {d : Devices} {u : State} (h : ServiceRun d u.dev) :
    EndsServiceRun d (svcReturn ret u) := fun _ ht => Host.Outcome.next.inj ht ▸ h

theorem endsServiceRun_stay {d : Devices} {u : State} (h : ServiceRun d u.dev) : EndsServiceRun d (svcStay u) :=
  fun _ ht => Host.Outcome.next.inj ht ▸ h

/-- A service that returns with a register written and no device changed. -/
theorem endsServiceRun_setReg (i : Reg) (x : Word) : EndsServiceRun s.dev (svcReturn ret (s.setReg i x)) :=
  endsServiceRun_return (by rw [State.setReg_dev]; exact .refl)

theorem svcSoftReset_endsServiceRun : EndsServiceRun s.dev (svcSoftReset s) := by
  have hstart : ServiceRun s.dev ((Svc.start s).read .byte 0x03007FFA).2.st.dev := .refl
  refine endsServiceRun_return ?_
  rw [State.setFlags_dev, softResetRegs_dev]
  exact hstart.clearBytes _ _

theorem svcRegisterRamReset_endsServiceRun : EndsServiceRun s.dev (svcRegisterRamReset ret s) := by
  have hdispcnt : ServiceRun s.dev ((Svc.start s).write .half 0x04000000 0x0080).st.dev :=
    .write (v := Svc.start s) .refl _ _ _
  exact endsServiceRun_return
    (((((hdispcnt.clearArea _ _ _ _).clearArea _ _ _ _).clearArea _ _ _ _).clearArea _ _ _ _).clearArea _ _ _ _
      |>.clear _)

theorem intrWait_endsServiceRun {u : State} {discard : Bool} {mask : Half} (hu : u.dev = s.dev) :
    EndsServiceRun s.dev (intrWait ret discard mask u) := by
  have hstart : ServiceRun s.dev (Svc.start u).st.dev := hu ▸ .refl
  have hfirst : ServiceRun s.dev (intrWaitFirst discard mask (Svc.start u)).st.dev := by
    unfold intrWaitFirst
    cases discard with
    | false => exact hstart.enable
    | true => exact ServiceRun.clearBiosIf (v := { Svc.start u with st := _ }) mask hstart.enable
  unfold intrWait
  dsimp only
  generalize hv : (if u.intrwaitMask = 0 then intrWaitFirst discard mask (Svc.start u) else Svc.start u) = v
  have hrun : ServiceRun s.dev v.st.dev := by
    subst hv
    split
    · exact hfirst
    · exact hstart
  have hread : ServiceRun s.dev (v.read .half biosIf).2.st.dev := hrun.read _ _
  split
  · exact endsServiceRun_stay (hread.enterHalt .halt)
  · exact endsServiceRun_return (hread.clearBiosIf _)

theorem divide_endsServiceRun {num den : Word} : EndsServiceRun s.dev (divide ret num den s) := by
  unfold divide
  split
  · exact endsServiceRun_stay .refl
  · refine endsServiceRun_return ?_
    simp only [State.setReg_dev]
    exact .refl

theorem cpuCopy_endsServiceRun {w : Width} {fill : Bool} {n : Nat} {src dst : Word} :
    EndsServiceRun s.dev (cpuCopy w fill n src dst ret s) := by
  have hstart : ServiceRun s.dev (Svc.start s).st.dev := .refl
  unfold cpuCopy
  dsimp only
  split
  · exact endsServiceRun_return .refl
  · split
    · exact endsServiceRun_return (ServiceRun.fillUnits _ _ _ _ hstart)
    · exact endsServiceRun_return (hstart.copyUnits _ _ _ _)

theorem decompress_endsServiceRun {body : Nat → Unzip → Unzip}
    (hbody : ∀ size u, ServiceRun s.dev u.svc.st.dev → ServiceRun s.dev (body size u).svc.st.dev) :
    EndsServiceRun s.dev (decompress body ret s) := by
  unfold decompress
  split
  · exact endsServiceRun_return .refl
  · exact endsServiceRun_return (hbody _ _ .refl)

theorem svcBitUnPack_endsServiceRun : EndsServiceRun s.dev (svcBitUnPack ret s) := by
  unfold svcBitUnPack
  split
  · exact endsServiceRun_return .refl
  · exact endsServiceRun_return (ServiceRun.unpackLoop _ _ _ .refl)

theorem svcHuff_endsServiceRun : EndsServiceRun s.dev (svcHuff ret s) := by
  unfold svcHuff
  split
  · exact endsServiceRun_return .refl
  · exact endsServiceRun_return (ServiceRun.huffLoop _ _ _ _ .refl)

theorem svcOpen_endsServiceRun : EndsServiceRun s.dev (svcOpen ret s) := by
  have hstart : ServiceRun s.dev (Svc.start s).st.dev := .refl
  have hrun := hstart.openAccesses (Config.openAccesses s.freeCount)
  obtain ⟨r, hr⟩ := writeOpenRegs_frame (Config.openRegs s.freeCount)
    ((Config.openAccesses s.freeCount).foldl Svc.openAccess (Svc.start s)).st
  unfold svcOpen
  dsimp only
  rw [hr]
  exact endsServiceRun_return hrun

theorem svcSound_endsServiceRun : EndsServiceRun s.dev (svcSound ret s) := by
  unfold svcSound
  split
  · exact svcOpen_endsServiceRun
  · exact endsServiceRun_return .refl

theorem svcMultiBoot_endsServiceRun : EndsServiceRun s.dev (svcMultiBoot ret s) := by
  unfold svcMultiBoot
  split
  · exact svcOpen_endsServiceRun
  · exact endsServiceRun_setReg 0 1

/-- Both boots reset the devices alike (70_reset_and_hazards.md R850). -/
theorem resetMachine_dev {t : State} (h : resetMachine s = .next t) : t.dev = resetDevices s.dev := by
  unfold resetMachine at h
  split at h
  · exact Host.Outcome.next.inj h ▸ rfl
  · exact Host.Outcome.next.inj h ▸ rfl
  · cases h

theorem svcHardReset_endsServiceRun : EndsServiceRun s.dev (svcHardReset s) := by
  intro t ht
  obtain ⟨u, hu, ht⟩ := andThen_eq_next ht
  cases ht
  rw [State.chargeRefill_dev, resetMachine_dev hu]
  exact .reset .refl

/-- Every service does to the devices what a service may; the cases are in the order of 47_swi_hle.md R521. -/
theorem runService_endsServiceRun {n : Nat} : EndsServiceRun s.dev (runService n ret s) := by
  have hstart : ServiceRun s.dev (Svc.start s).st.dev := .refl
  unfold runService
  split
  any_goals exact svcSound_endsServiceRun
  · exact svcSoftReset_endsServiceRun
  · exact svcRegisterRamReset_endsServiceRun
  · exact endsServiceRun_return (hstart.halt .halt)
  · exact endsServiceRun_return (hstart.halt .stop)
  · exact intrWait_endsServiceRun rfl
  · exact intrWait_endsServiceRun (by simp)
  · exact divide_endsServiceRun
  · exact divide_endsServiceRun
  · exact endsServiceRun_setReg 0 _
  · exact endsServiceRun_setReg 0 _
  · exact endsServiceRun_setReg 0 _
  · exact cpuCopy_endsServiceRun
  · exact cpuCopy_endsServiceRun
  · exact endsServiceRun_setReg 0 _
  · exact endsServiceRun_return (hstart.bgAffineLoop _ _ _)
  · exact endsServiceRun_return (hstart.objAffineLoop _ _ _ _)
  · exact svcBitUnPack_endsServiceRun
  · exact decompress_endsServiceRun fun _ _ h => h.lzLoop _ _ _ _ _
  · exact decompress_endsServiceRun fun _ _ h => h.lzLoop _ _ _ _ _
  · exact svcHuff_endsServiceRun
  · exact decompress_endsServiceRun fun _ _ h => h.rlLoop _ _ _
  · exact decompress_endsServiceRun fun _ _ h => h.rlLoop _ _ _
  · exact decompress_endsServiceRun fun _ _ h => h.diff8Loop _ _ _
  · exact decompress_endsServiceRun fun _ _ h => h.diff8Loop _ _ _
  · exact decompress_endsServiceRun fun _ _ h => h.diff16Loop _ _
  · exact endsServiceRun_return (hstart.bias _)
  · exact endsServiceRun_setReg (s := ((Svc.start s).read .word _).2.st) 0 _
  · exact svcMultiBoot_endsServiceRun
  · exact svcHardReset_endsServiceRun
  · exact endsServiceRun_return (hstart.write _ _ _)
  · exact endsServiceRun_return .refl

end Sys2Proof.Machine
end

section
/-! The devices in bounds through everything a step does to them (64_ppu.md R741, R743, 60_exceptions.md R620 to R622,
R651, R660, R661, 62_dma.md R701, R703, R705, R718). -/

open Sys2Proof

namespace Sys2Proof.Machine

/-! ### Reserved bits -/

section
variable {n : Nat} {x y m k : BitVec n}

/-- A masked value has no bit outside the mask. -/
theorem and_and_eq_zero (v : BitVec n) (h : m &&& k = 0) : v &&& m &&& k = 0 := by
  rw [BitVec.and_assoc, h]
  exact BitVec.and_zero

theorem or_and_eq_zero (hx : x &&& k = 0) (hy : y &&& k = 0) : (x ||| y) &&& k = 0 := by
  rw [BitVec.and_or_distrib_right, hx, hy]
  exact BitVec.or_zero

theorem masked_and_eq_zero (v : BitVec n) (h : x &&& k = 0) : x &&& v &&& k = 0 := by
  rw [BitVec.and_comm x v]
  exact and_and_eq_zero v h

theorem and_and_not_self (v m : BitVec n) : v &&& m &&& ~~~m = 0 := and_and_eq_zero v (BitVec.and_not_self m)

end

/-! ### The parts of the devices that have bounds -/

/-- A DMA channel's addresses and control within its masks (62_dma.md R701, R703, R705). -/
def DmaChannel.Bounded (n : Fin 4) (c : DmaChannel) : Prop :=
  c.sad &&& ~~~dmaSadMask n = 0 ∧ c.dad &&& ~~~dmaDadMask n = 0 ∧ c.src &&& ~~~dmaSadMask n = 0 ∧
    c.dst &&& ~~~dmaDadMask n = 0 ∧ c.cntH &&& ~~~dmaCntHMask n = 0

/-- The beam, the frames and DISPCNT of the pixel pipeline (64_ppu.md R741, R743). -/
def Ppu.Bounded (p : Ppu) : Prop :=
  (p.line < 228 ∧ p.dot < 1232 ∧ p.back.length = 160 ∧ p.front.length = 160) ∧ p.dispcnt &&& 0x0008 = 0

variable {d : Devices}

theorem Devices.InBounds.dma (h : d.InBounds) (n : Fin 4) : d.dma[n].Bounded n := by
  obtain ⟨-, -, -, -, -, hdma⟩ := h
  exact hdma n

theorem Devices.InBounds.ppu (h : d.InBounds) : d.ppu.Bounded := by
  obtain ⟨hbeam, -, -, ⟨-, -, hdispcnt⟩, -⟩ := h
  exact ⟨hbeam, hdispcnt⟩

theorem Devices.InBounds.timer (h : d.InBounds) (n : Fin 4) : d.timers[n].ctl &&& 0xFF38 = 0 := by
  obtain ⟨-, -, -, -, htimers, -⟩ := h
  exact htimers n

theorem Devices.InBounds.iflag (h : d.InBounds) : d.iflag &&& 0xC000 = 0 := by
  obtain ⟨-, ⟨-, hiflag, -⟩, -⟩ := h
  exact hiflag

theorem Devices.InBounds.fifos (h : d.InBounds) : d.fifoA ≤ 32 ∧ d.fifoB ≤ 32 := by
  obtain ⟨-, -, -, ⟨ha, hb, -⟩, -⟩ := h
  exact ⟨ha, hb⟩

theorem inBounds_notePort (l : List Nat) (h : d.InBounds) : (notePort l d).InBounds := h

theorem inBounds_setPpu {p : Ppu} (h : d.InBounds) (hp : p.Bounded) : Devices.InBounds { d with ppu := p } := by
  obtain ⟨-, hirq, hkeys, ⟨hfifoA, hfifoB, -⟩, htimers, hdma⟩ := h
  exact ⟨hp.1, hirq, hkeys, ⟨hfifoA, hfifoB, hp.2⟩, htimers, hdma⟩

theorem inBounds_setIflag {f : Half} (h : d.InBounds) (hf : f &&& 0xC000 = 0) :
    Devices.InBounds { d with iflag := f } := by
  obtain ⟨hbeam, ⟨hie, -, hime⟩, hkeys, hfifos, htimers, hdma⟩ := h
  exact ⟨hbeam, ⟨hie, hf, hime⟩, hkeys, hfifos, htimers, hdma⟩

theorem inBounds_setIe {v : Half} (h : d.InBounds) (hv : v &&& 0xC000 = 0) : Devices.InBounds { d with ie := v } := by
  obtain ⟨hbeam, ⟨-, hiflag, hime⟩, hkeys, hfifos, htimers, hdma⟩ := h
  exact ⟨hbeam, ⟨hv, hiflag, hime⟩, hkeys, hfifos, htimers, hdma⟩

theorem inBounds_setIme {v : Half} (h : d.InBounds) (hv : v &&& 0xFFFE = 0) : Devices.InBounds { d with ime := v } := by
  obtain ⟨hbeam, ⟨hie, hiflag, -⟩, hkeys, hfifos, htimers, hdma⟩ := h
  exact ⟨hbeam, ⟨hie, hiflag, hv⟩, hkeys, hfifos, htimers, hdma⟩

theorem inBounds_setKeycnt {v : Half} (h : d.InBounds) (hv : v &&& 0x3C00 = 0) :
    Devices.InBounds { d with keycnt := v } := by
  obtain ⟨hbeam, hirq, ⟨hkeyinput, -, hpostflg⟩, hfifos, htimers, hdma⟩ := h
  exact ⟨hbeam, hirq, ⟨hkeyinput, hv, hpostflg⟩, hfifos, htimers, hdma⟩

theorem inBounds_setFifos {a b : Nat} (h : d.InBounds) (ha : a ≤ 32) (hb : b ≤ 32) :
    Devices.InBounds { d with fifoA := a, fifoB := b } := by
  obtain ⟨hbeam, hirq, hkeys, ⟨-, -, hdispcnt⟩, htimers, hdma⟩ := h
  exact ⟨hbeam, hirq, hkeys, ⟨ha, hb, hdispcnt⟩, htimers, hdma⟩

theorem inBounds_setDma {n : Fin 4} {c : DmaChannel} (h : d.InBounds) (hc : c.Bounded n) :
    (setDma d n c).InBounds := by
  obtain ⟨hbeam, hirq, hkeys, hfifos, htimers, hdma⟩ := h
  refine ⟨hbeam, hirq, hkeys, hfifos, htimers, fun m => ?_⟩
  show DmaChannel.Bounded m (d.dma.set n c)[m]
  by_cases hm : m = n
  · subst hm
    simpa using hc
  · have hne : (n : Nat) ≠ m := fun e => hm (Fin.ext e.symm)
    rw [Fin.getElem_fin, Vector.getElem_set_ne _ _ hne]
    exact hdma m

theorem inBounds_setTimer {n : Fin 4} {t : Timer} (h : d.InBounds) (ht : t.ctl &&& 0xFF38 = 0) :
    (setTimer d n t).InBounds := by
  obtain ⟨hbeam, hirq, hkeys, hfifos, htimers, hdma⟩ := h
  refine ⟨hbeam, hirq, hkeys, hfifos, fun m => ?_, hdma⟩
  show (d.timers.set n t)[m].ctl &&& 0xFF38 = 0
  by_cases hm : m = n
  · subst hm
    simpa using ht
  · have hne : (n : Nat) ≠ m := fun e => hm (Fin.ext e.symm)
    rw [Fin.getElem_fin, Vector.getElem_set_ne _ _ hne]
    exact htimers m

/-- Requests of the fourteen sources are no reserved bits of IF (60_exceptions.md R621, R623). -/
theorem inBounds_raiseIrq (h : d.InBounds) {bit : Nat} (hbit : bit < 14) : (raiseIrq d bit).InBounds := by
  refine inBounds_setIflag h (or_and_eq_zero h.iflag ?_)
  interval_cases bit <;> rfl

theorem inBounds_evalKeypad (h : d.InBounds) : (evalKeypad d).InBounds := by
  unfold evalKeypad
  split
  · exact inBounds_raiseIrq h (by decide)
  · exact h

/-! ### Writes of I/O registers -/

/-- A write of DMAnCNT_H latches addresses that are within their masks (62_dma.md R704). -/
theorem dmaWriteCntH_bounded {n : Fin 4} {c : DmaChannel} (v : Half) (h : c.Bounded n) :
    (dmaWriteCntH n c v).Bounded n := by
  obtain ⟨hsad, hdad, hsrc, hdst, -⟩ := h
  have hcnt := and_and_not_self v (dmaCntHMask n)
  unfold dmaWriteCntH
  dsimp only
  split
  · split
    · exact ⟨hsad, hdad, hsrc, hdst, hcnt⟩
    · exact ⟨hsad, hdad, hsad, hdad, hcnt⟩
  · exact ⟨hsad, hdad, hsrc, hdst, hcnt⟩

theorem timerWriteCtl_ctl (t : Timer) (v : Half) : (timerWriteCtl t v).ctl = v &&& 0x00C7 := by
  unfold timerWriteCtl
  dsimp only
  split
  · split <;> rfl
  · rfl

theorem writeSoundcntH_inBounds (old v mask : Half) (h : d.InBounds) : (writeSoundcntH d old v mask).InBounds := by
  obtain ⟨ha, hb⟩ := h.fifos
  unfold writeSoundcntH
  refine inBounds_setFifos (d := { d with sound := _ }) h ?_ ?_ <;> split <;> omega

theorem writePostflg_inBounds (v mask : Half) (h : d.InBounds) : (writePostflg d v mask).InBounds := by
  unfold writePostflg
  split
  · exact h
  · obtain ⟨hbeam, hirq, ⟨hkeyinput, hkeycnt, -⟩, hfifos, htimers, hdma⟩ := h
    exact ⟨hbeam, hirq, ⟨hkeyinput, hkeycnt, and_and_eq_zero _ rfl⟩, hfifos, htimers, hdma⟩

theorem writeHaltcnt_inBounds (v mask : Half) (h : d.InBounds) : (writeHaltcnt d v mask).InBounds := by
  unfold writeHaltcnt
  split <;> exact h

/-- A register write keeps the bounds: the reserved bits of the registers that have them are masked off, and the others
have no bound. -/
theorem ioWrite16_inBounds (r : IoReg) (v mask : Half) (h : d.InBounds) : (ioWrite16 d r v mask).InBounds := by
  obtain ⟨ha, hb⟩ := h.fifos
  unfold ioWrite16
  cases r with
  | dispcnt =>
    obtain ⟨hbeam, -⟩ := h.ppu
    exact inBounds_setPpu h ⟨hbeam, and_and_eq_zero _ rfl⟩
  | sound i =>
    dsimp only
    split
    · exact writeSoundcntH_inBounds _ v mask h
    · exact h
  | fifoA => exact inBounds_setFifos h (Nat.min_le_left ..) hb
  | fifoB => exact inBounds_setFifos h ha (Nat.min_le_left ..)
  | dmaSadLo n | dmaSadHi n =>
    obtain ⟨-, hdad, hsrc, hdst, hcnt⟩ := h.dma n
    exact inBounds_setDma h ⟨and_and_not_self _ _, hdad, hsrc, hdst, hcnt⟩
  | dmaDadLo n | dmaDadHi n =>
    obtain ⟨hsad, -, hsrc, hdst, hcnt⟩ := h.dma n
    exact inBounds_setDma h ⟨hsad, and_and_not_self _ _, hsrc, hdst, hcnt⟩
  | dmaCntL n => exact inBounds_setDma h (h.dma n)
  | dmaCntH n => exact inBounds_setDma h (dmaWriteCntH_bounded _ (h.dma n))
  | tmCntL n => exact inBounds_setTimer h (h.timer n)
  | tmCntH n =>
    refine inBounds_setTimer h ?_
    rw [timerWriteCtl_ctl]
    exact and_and_eq_zero _ rfl
  | keycnt => exact inBounds_evalKeypad (inBounds_setKeycnt h (and_and_eq_zero _ rfl))
  | ie => exact inBounds_setIe h (and_and_eq_zero _ rfl)
  | iflag => exact inBounds_setIflag h (masked_and_eq_zero _ h.iflag)
  | ime => exact inBounds_setIme h (and_and_eq_zero _ rfl)
  | postflgHaltcnt => exact writeHaltcnt_inBounds v mask (writePostflg_inBounds v mask h)
  | greenswap | dispstat | vcount | bgcnt | bghofs | bgvofs | bgpa | bgpb | bgpc | bgpd | bgxLo | bgxHi | bgyLo | bgyHi
  | winh | winv | winin | winout | mosaic | bldcnt | bldalpha | bldy | siomulti | siocnt | siodata8 | keyinput | rcnt
  | joycnt | joyRecvLo | joyRecvHi | joyTransLo | joyTransHi | joystat | waitcnt => exact h

section
variable {P : Devices → Prop} (hreg : ∀ d r v mask, P d → P (ioWrite16 d r v mask))
  (hrest : ∀ d m b l c, P d → P { d with mem := m, backup := b, portStored := l, memctl := c })
include hreg

theorem ioWriteAt_keeps (off : Nat) (v mask : Half) (h : P d) : P (ioWriteAt d off v mask) := by
  unfold ioWriteAt
  split
  · exact h
  · exact hreg _ _ v mask h

include hrest

theorem ioWrite_keeps (w : Width) (a : Nat) (v : Word) (h : P d) : P (ioWrite d w a v) := by
  have hat {d : Devices} (off : Nat) (v mask : Half) (h : P d) := ioWriteAt_keeps hreg off v mask h
  unfold ioWrite
  split
  · cases w with
    | byte =>
      dsimp only
      split <;> exact hat _ _ _ h
    | half => exact hat _ _ _ h
    | word => exact hat _ _ _ (hat _ _ _ h)
  · split
    · exact hrest d d.mem d.backup d.portStored _ h
    · exact h

/-- What register writes keep, and no change of memory, of the notes of stores, of the BackupStore's calls and of the
memory control register touches, every bus write keeps. -/
theorem busWrite_keeps (w : Width) (a v : Word) (h : P d) : P (busWrite d w a v) := by
  have hmem (m : Memory) : P { d with mem := m } := hrest d m d.backup d.portStored d.memctl h
  have hcells (w : Width) (k : Nat) (x : Word) : P (writeCells d w k x) := by cases w <;> exact hmem _
  have hstore (b : List BackupCall) (l : List Nat) : P { d with backup := b, portStored := l } :=
    hrest d d.mem b l d.memctl h
  unfold busWrite
  dsimp only
  split
  case h_1 | h_2 => exact h
  case h_3 | h_4 => exact hcells _ _ _
  case h_5 => exact ioWrite_keeps hreg hrest _ _ _ (hstore d.backup _)
  case h_6 => cases w <;> exact hcells _ _ _
  case h_7 =>
    cases w with
    | byte =>
      dsimp only
      split
      · exact h
      · exact hcells _ _ _
    | half | word => exact hcells _ _ _
  case h_8 =>
    cases w with
    | byte => exact h
    | half | word => exact hcells _ _ _
  case h_9 =>
    split
    · cases w <;> exact hstore _ d.portStored
    · exact h
  case h_10 =>
    unfold backupWrite
    split
    · exact hstore _ _
    · exact h

end

/-- Memory, the notes of stores and the BackupStore's calls have no bound. -/
theorem busWrite_inBounds (w : Width) (a v : Word) (h : d.InBounds) : (busWrite d w a v).InBounds :=
  busWrite_keeps (P := Devices.InBounds) (fun _ r v mask => ioWrite16_inBounds r v mask) (fun _ _ _ _ _ h => h) w a v h

/-! ### Timers and the audio FIFOs -/

theorem dmaFire_inBounds (timing : Nat) (n : Fin 4) (h : d.InBounds) : (dmaFire d timing n).InBounds := by
  unfold dmaFire
  split
  · exact inBounds_setDma h (h.dma n)
  · exact h

theorem dmaFireAll_inBounds (timing : Nat) (h : d.InBounds) : (dmaFireAll d timing).InBounds :=
  dmaFire_inBounds _ _ (dmaFire_inBounds _ _ (dmaFire_inBounds _ _ (dmaFire_inBounds _ _ h)))

theorem fifoRequest_inBounds (a : Word) (h : d.InBounds) : (fifoRequest d a).InBounds := by
  have hfire {e : Devices} (n : Fin 4) (he : e.InBounds) : (fifoFire e a n).InBounds := by
    unfold fifoFire
    split
    · exact dmaFire_inBounds _ _ he
    · exact he
  exact hfire 2 (hfire 1 h)

theorem clockFifoA_inBounds (n : Nat) (h : d.InBounds) : (clockFifoA d n).InBounds := by
  obtain ⟨ha, hb⟩ := h.fifos
  have hpop : Devices.InBounds { d with fifoA := d.fifoA - 1 } := inBounds_setFifos h (by omega) hb
  unfold clockFifoA
  dsimp only
  split
  · split
    · exact fifoRequest_inBounds _ hpop
    · exact hpop
  · exact h

theorem clockFifoB_inBounds (n : Nat) (h : d.InBounds) : (clockFifoB d n).InBounds := by
  obtain ⟨ha, hb⟩ := h.fifos
  have hpop : Devices.InBounds { d with fifoB := d.fifoB - 1 } := inBounds_setFifos h ha (by omega)
  unfold clockFifoB
  dsimp only
  split
  · split
    · exact fifoRequest_inBounds _ hpop
    · exact hpop
  · exact h

theorem externalFifo_inBounds (a : Word) (h : d.InBounds) : (externalFifo d a).InBounds := by
  unfold externalFifo
  dsimp only
  split
  · exact fifoRequest_inBounds _ h
  · exact h

theorem clockFifos_inBounds (n : Nat) (h : d.InBounds) : (clockFifos d n).InBounds := by
  unfold clockFifos
  split
  · split
    · exact clockFifoB_inBounds n (clockFifoA_inBounds n h)
    · exact externalFifo_inBounds _ (externalFifo_inBounds _ h)
  · exact h

section
variable {inc : Devices → Devices} (hinc : ∀ {e : Devices}, e.InBounds → (inc e).InBounds) (n : Fin 4)
include hinc

/-- An increment keeps the bounds if the one it cascades into does. -/
theorem timerIncrement_inBounds (h : d.InBounds) : (timerIncrement n inc d).InBounds := by
  have hreload := inBounds_setTimer (n := n) (t := { d.timers[n] with counter := d.timers[n].reload }) h (h.timer n)
  unfold timerIncrement
  dsimp only
  split
  · refine clockFifos_inBounds _ (hinc ?_)
    split
    · exact inBounds_raiseIrq hreload (by omega)
    · exact hreload
  · exact inBounds_setTimer h (h.timer n)

theorem cascadeInto_inBounds (h : d.InBounds) : (cascadeInto n inc d).InBounds := by
  unfold cascadeInto
  split
  · exact hinc h
  · exact h

theorem timerTick_inBounds (h : d.InBounds) : (timerTick n inc d).InBounds := by
  unfold timerTick
  dsimp only
  split
  · split
    · exact hinc (inBounds_setTimer h (h.timer n))
    · exact inBounds_setTimer h (h.timer n)
  · exact h

end

theorem tickTimers_inBounds (h : d.InBounds) : (tickTimers d).InBounds := by
  have h3 {e : Devices} (he : e.InBounds) : (timerInc3 e).InBounds := timerIncrement_inBounds id 3 he
  have h2 {e : Devices} (he : e.InBounds) : (timerInc2 e).InBounds :=
    timerIncrement_inBounds (cascadeInto_inBounds h3 3) 2 he
  have h1 {e : Devices} (he : e.InBounds) : (timerInc1 e).InBounds :=
    timerIncrement_inBounds (cascadeInto_inBounds h2 2) 1 he
  have h0 {e : Devices} (he : e.InBounds) : (timerInc0 e).InBounds :=
    timerIncrement_inBounds (cascadeInto_inBounds h1 1) 0 he
  exact timerTick_inBounds h3 3 (timerTick_inBounds h2 2 (timerTick_inBounds h1 1 (timerTick_inBounds h0 0 h)))

/-! ### The pixel pipeline -/

theorem raiseIfEnabled_inBounds (enable : Nat) {irq : Nat} (hirq : irq < 14) (h : d.InBounds) :
    (raiseIfEnabled d enable irq).InBounds := by
  unfold raiseIfEnabled
  split
  · exact inBounds_raiseIrq h hirq
  · exact h

/-- A rendered line is one of the frame's rows (64_ppu.md R743). -/
theorem renderLine_inBounds (h : d.InBounds) : (renderLine d).InBounds := by
  obtain ⟨⟨hline, hdot, hback, hfront⟩, hdispcnt⟩ := h.ppu
  exact inBounds_setPpu h ⟨⟨hline, hdot, by rw [← hback]; exact List.length_set, hfront⟩, hdispcnt⟩

theorem enterHBlank_inBounds (h : d.InBounds) : (enterHBlank d).InBounds := by
  unfold enterHBlank
  dsimp only
  generalize hd1 : (if d.ppu.line < 160 then renderLine d else d) = d1
  have hrender : d1.InBounds := by
    subst hd1
    split
    · exact renderLine_inBounds h
    · exact h
  have hraise : (raiseIfEnabled (setDispstat d1 (d1.ppu.dispstat ||| 2)) 4 1).InBounds :=
    raiseIfEnabled_inBounds 4 (by decide) (inBounds_setPpu hrender hrender.ppu)
  split
  · exact dmaFireAll_inBounds 2 hraise
  · exact hraise

theorem enterVBlank_inBounds (h : d.InBounds) : (enterVBlank d).InBounds := by
  obtain ⟨⟨hline, hdot, hback, -⟩, hdispcnt⟩ := h.ppu
  exact dmaFireAll_inBounds 1 (raiseIfEnabled_inBounds 3 (by decide)
    (inBounds_setPpu h ⟨⟨hline, hdot, hback, hback⟩, hdispcnt⟩))

theorem enterLine_inBounds {l : Nat} (hl : l < 228) (h : d.InBounds) : (enterLine d l).InBounds := by
  obtain ⟨⟨-, -, hback, hfront⟩, hdispcnt⟩ := h.ppu
  have hmove (flags : Half) :
      Devices.InBounds { d with ppu := { d.ppu with dot := 0, line := l, dispstat := flags } } :=
    inBounds_setPpu h ⟨⟨hl, Nat.zero_lt_succ _, hback, hfront⟩, hdispcnt⟩
  unfold enterLine
  dsimp only
  generalize hd2 : (if decide (l = d.ppu.dispstat.toNat / 0x100) then raiseIfEnabled _ 5 2 else _) = d2
  have hmatch : d2.InBounds := by
    subst hd2
    split
    · exact raiseIfEnabled_inBounds 5 (by decide) (hmove _)
    · exact hmove _
  split
  · exact enterVBlank_inBounds hmatch
  · split
    · exact inBounds_setPpu hmatch hmatch.ppu
    · exact hmatch

theorem tickPpu_inBounds (h : d.InBounds) : (tickPpu d).InBounds := by
  obtain ⟨⟨hline, hdot, hback, hfront⟩, hdispcnt⟩ := h.ppu
  have hmove (hlt : d.ppu.dot + 1 < 1232) : Devices.InBounds { d with ppu := { d.ppu with dot := d.ppu.dot + 1 } } :=
    inBounds_setPpu h ⟨⟨hline, hlt, hback, hfront⟩, hdispcnt⟩
  unfold tickPpu
  dsimp only
  split
  · exact enterHBlank_inBounds (hmove (by omega))
  · split
    · exact enterLine_inBounds (by split <;> omega) h
    · exact hmove (by omega)

/-! ### Transfers -/

/-- A unit's addresses are masked after each step (62_dma.md R705, R710). -/
theorem dmaUnit_inBounds (r : DmaRun) (q : Access) (h : d.InBounds) : (dmaUnit r q d).1.InBounds := by
  unfold dmaUnit
  dsimp only
  generalize hd1 : (if dmaKeepsLatch _ then d else _) = d1
  have hlatch : d1.InBounds := by
    subst hd1
    split <;> exact h
  have hwrite (a v : Word) := busWrite_inBounds r.width a v hlatch
  obtain ⟨hsad, hdad, -, hdst, hcnt⟩ := (hwrite _ _).dma r.chan
  refine inBounds_setDma (hwrite _ _) ⟨hsad, hdad, and_and_not_self _ _, ?_, hcnt⟩
  dsimp only
  split
  · exact hdst
  · exact and_and_not_self _ _

theorem dmaEnd_inBounds (r : DmaRun) (h : d.InBounds) : (dmaEnd r d).InBounds := by
  unfold dmaEnd
  dsimp only
  generalize hd1 : (if r.cntH.getLsbD 14 then raiseIrq d (8 + r.chan.val) else d) = d1
  have hraise : d1.InBounds := by
    subst hd1
    split
    · exact inBounds_raiseIrq h (by omega)
    · exact h
  obtain ⟨hsad, hdad, hsrc, hdst, hcnt⟩ := hraise.dma r.chan
  split
  · refine inBounds_setDma hraise ⟨hsad, hdad, hsrc, ?_, hcnt⟩
    dsimp only
    split
    · exact hdad
    · exact hdst
  · exact inBounds_setDma hraise ⟨hsad, hdad, hsrc, hdst, masked_and_eq_zero _ hcnt⟩

theorem dmaTransfer_inBounds (n : Fin 4) (h : d.InBounds) : (dmaTransfer d n).1.InBounds :=
  dmaEnd_inBounds _ (dmaLoop_keeps (P := Devices.InBounds) _ (fun q _ => dmaUnit_inBounds _ q) _ _ _ _
    (inBounds_setDma h (h.dma n)))

/-! ### Services -/

theorem dispcnt_reset_bit3 : (0x0080 : Half) &&& 0x0008 = 0 := by decide

theorem clearOtherIo_inBounds (h : d.InBounds) : (clearOtherIo d).InBounds := by
  obtain ⟨⟨-, hdot, hback, hfront⟩, -⟩ := h.ppu
  obtain ⟨-, hirq, ⟨hkeyinput, -, hpostflg⟩, ⟨ha, hb, -⟩, -⟩ := id h
  refine ⟨⟨Nat.zero_lt_succ _, hdot, hback, hfront⟩, hirq, ⟨hkeyinput, BitVec.zero_and, hpostflg⟩,
    ⟨ha, hb, dispcnt_reset_bit3⟩, fun n => ?_, fun n => ?_⟩
  · show (d.timers.map clearedTimer)[n].ctl &&& 0xFF38 = 0
    rw [Fin.getElem_fin, Vector.getElem_map]
    exact BitVec.zero_and
  · show DmaChannel.Bounded n (d.dma.map clearedDma)[n]
    rw [Fin.getElem_fin, Vector.getElem_map]
    obtain ⟨-, -, hsrc, hdst, -⟩ := h.dma n
    exact ⟨BitVec.zero_and, BitVec.zero_and, hsrc, hdst, BitVec.zero_and⟩

theorem clearRegisters_inBounds (flags : Word) (h : d.InBounds) : (clearRegisters flags d).InBounds := by
  unfold clearRegisters
  dsimp only
  generalize hd1 : (if flags.getLsbD 5 then notePort serialHalves { d with serial := Serial.reset } else d) = d1
  have h1 : d1.InBounds := by
    subst hd1
    split
    · exact inBounds_notePort _ h
    · exact h
  generalize hd2 : (if flags.getLsbD 6 then notePort soundHalves { d1 with sound := soundReset } else d1) = d2
  have h2 : d2.InBounds := by
    subst hd2
    split
    · exact inBounds_notePort _ h1
    · exact h1
  split
  · exact inBounds_notePort _ (clearOtherIo_inBounds h2)
  · exact h2

/-- A reset gives the registers their reset values, whatever they were (10_state.md R46). -/
theorem resetDevices_inBounds (d : Devices) : (resetDevices d).InBounds := by
  refine ⟨⟨Nat.zero_lt_succ _, Nat.zero_lt_succ _, List.length_replicate, List.length_replicate⟩,
    ⟨BitVec.zero_and, BitVec.zero_and, BitVec.zero_and⟩, ⟨show (0x03FF : Half) &&& 0xFC00 = 0 by decide,
      BitVec.zero_and, ?_⟩, ⟨Nat.zero_le _, Nat.zero_le _, dispcnt_reset_bit3⟩, ?_, ?_⟩
  · unfold resetDevices
    dsimp only
    split <;> rfl
  · show ∀ n : Fin 4, Devices.reset.timers[n].ctl &&& 0xFF38 = 0
    decide
  · show ∀ n : Fin 4, Devices.reset.dma[n].Bounded n
    unfold DmaChannel.Bounded
    decide

theorem ServiceRun.inBounds {e : Devices} (h : ServiceRun d e) (hd : d.InBounds) : e.InBounds := by
  induction h with
  | refl => exact hd
  | bus _ w a x ih => exact busWrite_inBounds w a x ih
  | busOpen _ w a x ih =>
    have hwrite := busWrite_inBounds w a x ih
    exact inBounds_setIflag hwrite (or_and_eq_zero hwrite.iflag ih.iflag)
  | halt _ k ih => exact ih
  | enable _ ih => exact inBounds_notePort _ (inBounds_setIme ih (by decide))
  | bias _ sound ih => exact ih
  | clear _ flags ih => exact clearRegisters_inBounds flags ih
  | reset _ ih => exact resetDevices_inBounds _

/-- The bounds are kept by everything a step does to the devices. -/
theorem inBounds_keptByStep : KeptByStep Devices.InBounds where
  noStores _ hd := hd
  write _ w a v hd := busWrite_inBounds w a v hd
  service _ _ _ t hs ht := (runService_endsServiceRun t ht).inBounds hs
  transfer _ n hd := dmaTransfer_inBounds n hd
  cycle _ hd := tickPpu_inBounds (tickTimers_inBounds hd)
  keypad _ hd := inBounds_evalKeypad hd
  run _ _ hd := hd

end Sys2Proof.Machine

open Sys2Proof.Machine

/-- Settles O60: stores, services, transfers, device cycles and the keypad each keep the bounds, and so does the step. -/
theorem stepKeepsDeviceBounds : Obligations.StepKeepsDeviceBounds :=
  fun _ _ hs ht => inBounds_keptByStep.step ht hs
end


section
/-! Exceptions and interrupts: the poll, the traps, and the returns (60_exceptions.md R602 to R612, R624, R625). -/

open Sys2Proof

namespace Sys2Proof.Machine

/-! ### The poll -/

/-- The poll's test is R624's condition. -/
theorem irqTaken_iff (s : State) :
    irqTaken s = true ↔
      s.dev.ime.getLsbD 0 = true ∧ s.dev.ie &&& s.dev.iflag &&& 0x3FFF ≠ 0 ∧ s.cpsr.i = false ∧ s.dev.run = .running := by
  simp only [irqTaken, pendingIrqs, Bool.and_eq_true, bne_iff_ne, beq_iff_eq, Bool.not_eq_true', and_assoc]

/-- A poll that takes the IRQ is the entry, with its cycles. -/
theorem pollInterrupts_taken {s : State} (h : irqTaken s = true) :
    pollInterrupts s = enteredException s modeIrq 0x18 (s.pc + 4) (irqCycles s.dev.params) := by
  rw [pollInterrupts, if_pos h, takeException_entered, entered_charge, Nat.zero_add]

theorem pollInterrupts_not_taken {s : State} (h : ¬ irqTaken s = true) : pollInterrupts s = s := if_neg h

/-! ### The traps -/

/-- A software interrupt whose condition passes is SWI_MODE's: a call of a service or the trap. -/
theorem exec_swi {i : Instr} {s : State} (hi : isSwi i = true) (hrun : mayRun i s) :
    ∃ n, exec i s = softwareInterrupt n s := by
  cases i with
  | armSwi c comment => exact ⟨comment.toNat / 0x10000, whenCond_passed (hrun c rfl) _⟩
  | thumbSwi value => exact ⟨value.toNat, rfl⟩
  | _ => cases hi

theorem softwareInterrupt_trap {s : State} (n : Nat) (h : s.dev.params.swiMode = .trap) :
    softwareInterrupt n s = s.trap modeSvc 0x08 := by
  rw [softwareInterrupt, h]

theorem undefinedInstr_trap {s : State} (h : s.dev.params.undefPolicy = .trap) :
    s.undefinedInstr = s.trap modeUnd 0x04 := by
  rw [State.undefinedInstr, h]

/-! ### The returns -/

/-- A mask of all but the low n bits keeps a word that has none of them. -/
theorem and_eq_self_of_mod_eq_zero {v mask : Word} (n : Nat) (hmask : ∀ k < 32, n ≤ k → mask.getLsbD k = true)
    (hv : v.toNat % 2 ^ n = 0) : v &&& mask = v := by
  refine BitVec.eq_of_getLsbD_eq fun k hk => ?_
  rw [BitVec.getLsbD_and]
  rcases Nat.lt_or_ge k n with hlow | hhigh
  · have hbit : (v.toNat % 2 ^ n).testBit k = v.getLsbD k := by
      rw [Nat.testBit_mod_two_pow, decide_eq_true hlow, Bool.true_and, BitVec.getLsbD]
    rw [← hbit, hv, Nat.zero_testBit, Bool.false_and]
  · rw [hmask k hk hhigh, Bool.and_true]

/-- An aligned address is what a branch in its instruction state makes of it (R35). -/
theorem alignPc_eq_self (t : Bool) {v : Word} (h : v.toNat % (if t then 2 else 4 : Word).toNat = 0) :
    alignPc t v = v := by
  cases t
  · exact and_eq_self_of_mod_eq_zero (mask := 0xFFFFFFFC) 2 (by decide) h
  · exact and_eq_self_of_mod_eq_zero (mask := 0xFFFFFFFE) 1 (by decide) h

section
variable {m : BitVec 5} (hm : m = modeSvc ∨ m = modeUnd ∨ m = modeIrq) (s : State) (v l : Word) (cost : Nat)
include hm

/-- The entry saves the status word in the handler's SPSR (R606). -/
theorem enteredException_spsrOf : (enteredException s m v l cost).spsrOf m = some s.cpsr := by
  rcases hm with rfl | rfl | rfl <;> rfl

/-- The entry leaves the link in the handler's r14 (R606). -/
theorem enteredException_link : (enteredException s m v l cost).bankedReg m 14 = l := by
  have hentered : enteredException s m v l cost =
      { (s.setSpsr m s.cpsr).withReg m 14 l with
        cpsr := { s.cpsr with m := m, t := false, i := true }, pc := v, stepCycles := s.stepCycles + cost } := rfl
  have hregs : (enteredException s m v l cost).regs[bankIndex m 14] = l := by
    rw [hentered]
    exact (withReg_regs _ m 14 l _).trans (if_pos ⟨by decide, rfl⟩)
  rcases hm with rfl | rfl | rfl <;> exact hregs

end

/-- A data-processing write of r15 with S = 1 in ARM state, in a mode whose SPSR holds a legal mode, returns to an aligned
address with the saved status word (R301, R41). -/
theorem exec_dpInstr_returns {op : AluOp} {rn : Reg} {f : DpForm} {u : State} {p : Psr} {a : Word}
    (hop : op.isTest = false) (ht : u.cpsr.t = false) (hspsr : u.spsrOf u.cpsr.m = some p)
    (hp : legalMode p.m = true) (hres : aluResult op (dpFirst u rn f) (dpSecond u f).value u.cpsr.c = a)
    (ha : a.toNat % (if p.t then 2 else 4 : Word).toNat = 0) :
    ∃ x, exec (dpInstr op .al true rn 15 f) u = .next x ∧ x.cpsr = p ∧ x.pc = a ∧ x.regs = u.regs ∧ x.dev = u.dev := by
  obtain ⟨-, -, hrestore, -⟩ := dataProcessingWritesPc op .al true rn f u hop ht rfl
  refine ⟨_, hrestore rfl p hspsr hp, rfl, ?_, rfl, rfl⟩
  rw [hres]
  exact alignPc_eq_self p.t ha

end Sys2Proof.Machine

open Sys2Proof.Machine

/-- Settles O39: the poll's test is R624's, and the entry with its cycles is the whole of a taken poll. -/
theorem interruptPoll : Obligations.InterruptPoll := fun s =>
  ⟨fun hdue => pollInterrupts_taken ((irqTaken_iff s).2 hdue),
    fun hnot => pollInterrupts_not_taken fun htaken => hnot ((irqTaken_iff s).1 htaken), irqCycles_table⟩

/-- Settles O35: both are the trap at a vector of the BIOS. -/
theorem trapsAreTaken : Obligations.TrapsAreTaken := by
  intro i s hrun
  have htrap (m : BitVec 5) (v : Word) (hv : v.toNat < 0x3FF0) :
      s.trap m v = match s.dev.params.biosKind with
        | .supplied => .next (enteredException s m v (s.pc + s.instrBytes) (s.sc + 2))
        | .stub => .refused .trapWithStubBios := by
    rw [trap_eq s m v hv]
    cases s.dev.params.biosKind <;> rfl
  refine ⟨fun hi hpolicy => ?_, fun hi hmode => ?_⟩
  · rw [exec_undefined hi hrun, undefinedInstr_trap hpolicy]
    exact htrap modeUnd 0x04 (by decide)
  · obtain ⟨n, hexec⟩ := exec_swi hi hrun
    rw [hexec, softwareInterrupt_trap n hmode]
    exact htrap modeSvc 0x08 (by decide)

/-- Settles O40: both words write r15 with S = 1, from the link and the SPSR that the entry left. -/
theorem exceptionReturns : Obligations.ExceptionReturns := by
  intro s u m v l cost hs hm t hmode ht hspsr hlink
  obtain ⟨hlegal, haligned⟩ := hs
  have hsaved : u.spsrOf u.cpsr.m = some s.cpsr := by rw [hmode, hspsr, enteredException_spsrOf hm]
  have hlr : u.bankedReg u.cpsr.m 14 = l := by rw [hmode, hlink, enteredException_link hm]
  have hmovs : decodeWord false 0xE1B0F00E = dpInstr .mov .al true 0 15 (.shift 0 .lsl 14) := by decide
  have hsubs : decodeWord false 0xE25EF004 = dpInstr .sub .al true 14 15 (.imm 0 4) := by decide
  refine ⟨fun hl => ?_, fun hl => ?_⟩
  · rw [hmovs]
    exact exec_dpInstr_returns rfl ht hsaved hlegal (hlr.trans hl) (nextPc_aligned haligned)
  · rw [hsubs]
    have hback : subWith l 4 false = s.pc := by
      rw [hl]
      exact (BitVec.sub_zero _).trans (BitVec.add_sub_cancel _ _)
    have hres : aluResult .sub (u.readReg 14) 4 u.cpsr.c = s.pc := (congrArg (subWith · 4 false) hlr).trans hback
    exact exec_dpInstr_returns rfl ht hsaved hlegal hres haligned
end


section
/-! What the parts of a device cycle leave alone (70_reset_and_hazards.md R857): a trigger changes channels, the audio
FIFOs and the timers no more than their own fields and the requests. -/

open Sys2Proof

namespace Sys2Proof.Machine

variable {d e : Devices}

/-! ### Triggers and the audio FIFOs -/

theorem dmaFire_frame (d : Devices) (timing : Nat) (n : Fin 4) : ∃ c, dmaFire d timing n = { d with dma := c } := by
  unfold dmaFire
  split <;> exact ⟨_, rfl⟩

/-- Firing channels changes channels alone (62_dma.md R707, R708). -/
theorem dmaFireAll_frame (d : Devices) (timing : Nat) : ∃ c, dmaFireAll d timing = { d with dma := c } := by
  unfold dmaFireAll
  obtain ⟨c0, h0⟩ := dmaFire_frame d timing 0
  obtain ⟨c1, h1⟩ := dmaFire_frame { d with dma := c0 } timing 1
  obtain ⟨c2, h2⟩ := dmaFire_frame { d with dma := c1 } timing 2
  rw [h0, h1, h2]
  exact dmaFire_frame { d with dma := c2 } timing 3

/-- From devices to others that differ in the channels and the audio FIFOs alone. -/
def FifoFrame (d e : Devices) : Prop :=
  ∃ c a b k, e = { d with dma := c, fifoA := a, fifoB := b, fifoDraws := k }

theorem FifoFrame.refl (d : Devices) : FifoFrame d d := ⟨d.dma, d.fifoA, d.fifoB, d.fifoDraws, rfl⟩

theorem FifoFrame.trans {f : Devices} (h : FifoFrame d e) (h' : FifoFrame e f) : FifoFrame d f := by
  obtain ⟨_, _, _, _, rfl⟩ := h
  obtain ⟨c, a, b, k, rfl⟩ := h'
  exact ⟨c, a, b, k, rfl⟩

theorem fifoRequest_frame (d : Devices) (a : Word) : FifoFrame d (fifoRequest d a) := by
  have hfire (e : Devices) (n : Fin 4) : FifoFrame e (fifoFire e a n) := by
    unfold fifoFire
    split
    · obtain ⟨c, hc⟩ := dmaFire_frame e 3 n
      exact ⟨c, e.fifoA, e.fifoB, e.fifoDraws, hc⟩
    · exact .refl e
  exact (hfire d 1).trans (hfire _ 2)

theorem clockFifoA_frame (d : Devices) (n : Nat) : FifoFrame d (clockFifoA d n) := by
  have hpop : FifoFrame d { d with fifoA := d.fifoA - 1 } := ⟨d.dma, d.fifoA - 1, d.fifoB, d.fifoDraws, rfl⟩
  unfold clockFifoA
  dsimp only
  split
  · split
    · exact hpop.trans (fifoRequest_frame _ _)
    · exact hpop
  · exact .refl d

theorem clockFifoB_frame (d : Devices) (n : Nat) : FifoFrame d (clockFifoB d n) := by
  have hpop : FifoFrame d { d with fifoB := d.fifoB - 1 } := ⟨d.dma, d.fifoA, d.fifoB - 1, d.fifoDraws, rfl⟩
  unfold clockFifoB
  dsimp only
  split
  · split
    · exact hpop.trans (fifoRequest_frame _ _)
    · exact hpop
  · exact .refl d

theorem externalFifo_frame (d : Devices) (a : Word) : FifoFrame d (externalFifo d a) := by
  have hdraw : FifoFrame d { d with fifoDraws := d.fifoDraws + 1 } := ⟨d.dma, d.fifoA, d.fifoB, _, rfl⟩
  unfold externalFifo
  dsimp only
  split
  · exact hdraw.trans (fifoRequest_frame _ _)
  · exact hdraw

theorem clockFifos_frame (d : Devices) (n : Nat) : FifoFrame d (clockFifos d n) := by
  unfold clockFifos
  split
  · split
    · exact (clockFifoA_frame d n).trans (clockFifoB_frame _ n)
    · exact (externalFifo_frame d _).trans (externalFifo_frame _ _)
  · exact .refl d

/-! ### Timers -/

/-- From devices to others that differ in the timers, the requests, the channels and the audio FIFOs alone. -/
def TimerFrame (d e : Devices) : Prop := ∃ t f, FifoFrame { d with timers := t, iflag := f } e

theorem FifoFrame.timerFrame (h : FifoFrame d e) : TimerFrame d e := ⟨d.timers, d.iflag, h⟩

theorem TimerFrame.refl (d : Devices) : TimerFrame d d := (FifoFrame.refl d).timerFrame

theorem TimerFrame.trans {f : Devices} (h : TimerFrame d e) (h' : TimerFrame e f) : TimerFrame d f := by
  obtain ⟨_, _, _, _, _, _, rfl⟩ := h
  obtain ⟨t, i, c, a, b, k, rfl⟩ := h'
  exact ⟨t, i, c, a, b, k, rfl⟩

theorem setTimer_frame (d : Devices) (n : Fin 4) (t : Timer) : TimerFrame d (setTimer d n t) :=
  ⟨d.timers.set n t, d.iflag, .refl _⟩

theorem raiseIrq_frame (d : Devices) (bit : Nat) : TimerFrame d (raiseIrq d bit) := ⟨d.timers, _, .refl _⟩

section
variable {inc : Devices → Devices} (hinc : ∀ d, TimerFrame d (inc d)) (n : Fin 4) (d : Devices)
include hinc

theorem timerIncrement_frame : TimerFrame d (timerIncrement n inc d) := by
  unfold timerIncrement
  dsimp only
  split
  · refine TimerFrame.trans ?_ ((hinc _).trans (clockFifos_frame _ _).timerFrame)
    split
    · exact (setTimer_frame d n _).trans (raiseIrq_frame _ _)
    · exact setTimer_frame d n _
  · exact setTimer_frame _ _ _

theorem cascadeInto_frame : TimerFrame d (cascadeInto n inc d) := by
  unfold cascadeInto
  split
  · exact hinc d
  · exact .refl d

theorem timerTick_frame : TimerFrame d (timerTick n inc d) := by
  unfold timerTick
  dsimp only
  split
  · split
    · exact (setTimer_frame d n _).trans (hinc _)
    · exact setTimer_frame _ _ _
  · exact .refl d

end

theorem tickTimers_frame (d : Devices) : TimerFrame d (tickTimers d) := by
  have h3 : ∀ d, TimerFrame d (timerInc3 d) := timerIncrement_frame TimerFrame.refl 3
  have h2 : ∀ d, TimerFrame d (timerInc2 d) := timerIncrement_frame (cascadeInto_frame h3 3) 2
  have h1 : ∀ d, TimerFrame d (timerInc1 d) := timerIncrement_frame (cascadeInto_frame h2 2) 1
  have h0 : ∀ d, TimerFrame d (timerInc0 d) := timerIncrement_frame (cascadeInto_frame h1 1) 0
  exact (((timerTick_frame h0 0 d).trans (timerTick_frame h1 1 _)).trans (timerTick_frame h2 2 _)).trans
    (timerTick_frame h3 3 _)

/-! ### The pixel pipeline -/

/-- An enabled request sets its bit of IF and nothing else. -/
theorem raiseIfEnabled_eq (d : Devices) (enable irq : Nat) :
    raiseIfEnabled d enable irq =
      { d with iflag := if d.ppu.dispstat.getLsbD enable then d.iflag ||| BitVec.ofNat 16 (2 ^ irq) else d.iflag } := by
  unfold raiseIfEnabled
  split <;> rfl

/-- A rendered line changes the frame being drawn, OBJ-window flags and internal points alone (64_ppu.md R742, R744). -/
theorem renderLine_frame (d : Devices) :
    ∃ b w x y, renderLine d = { d with ppu := { d.ppu with back := b, objwin := w, bgxInt := x, bgyInt := y } } :=
  ⟨_, _, _, _, rfl⟩

/-- The HBlank of a line: the flag, its request, the rendering of a visible line and triggers (64_ppu.md R742). -/
theorem enterHBlank_frame (d : Devices) :
    ∃ b w x y c, enterHBlank d =
      { d with
        ppu := { d.ppu with dispstat := d.ppu.dispstat ||| 2, back := b, objwin := w, bgxInt := x, bgyInt := y }
        iflag := if d.ppu.dispstat.getLsbD 4 then d.iflag ||| 2 else d.iflag
        dma := c } := by
  have hrender : ∃ b w x y, (if d.ppu.line < 160 then renderLine d else d) =
      { d with ppu := { d.ppu with back := b, objwin := w, bgxInt := x, bgyInt := y } } := by
    split
    · exact renderLine_frame d
    · exact ⟨d.ppu.back, d.ppu.objwin, d.ppu.bgxInt, d.ppu.bgyInt, rfl⟩
  have henable : (d.ppu.dispstat ||| 2).getLsbD 4 = d.ppu.dispstat.getLsbD 4 := by simp
  obtain ⟨b, w, x, y, h1⟩ := hrender
  unfold enterHBlank
  rw [h1]
  simp only [raiseIfEnabled_eq, setDispstat, henable]
  split
  · obtain ⟨c, hc⟩ := dmaFireAll_frame _ 2
    rw [hc]
    exact ⟨b, w, x, y, c, rfl⟩
  · exact ⟨b, w, x, y, d.dma, rfl⟩

/-- The VBlank: the flag, the frame published, the internal points reloaded, its request and triggers (R742, R743). -/
theorem enterVBlank_frame (d : Devices) :
    ∃ c, enterVBlank d =
      { d with
        ppu := { d.ppu with
          dispstat := d.ppu.dispstat ||| 1, front := d.ppu.back, bgxInt := d.ppu.bgx, bgyInt := d.ppu.bgy }
        iflag := if d.ppu.dispstat.getLsbD 3 then d.iflag ||| 1 else d.iflag
        dma := c } := by
  have henable : (d.ppu.dispstat ||| 1).getLsbD 3 = d.ppu.dispstat.getLsbD 3 := by simp
  unfold enterVBlank
  simp only [raiseIfEnabled_eq, henable]
  obtain ⟨c, hc⟩ := dmaFireAll_frame _ 1
  rw [hc]
  exact ⟨c, rfl⟩

/-- DISPSTAT at the start of line l: the HBlank flag falls and the match flag follows VCOUNT (R742). -/
def lineFlags (d : Devices) (l : Nat) : Half :=
  (d.ppu.dispstat &&& 0xFFF9) ||| (if l = d.ppu.dispstat.toNat / 0x100 then 4 else 0)

/-- The devices at the start of line l, before the VBlank events of lines 160 and 0 (R742). -/
def lineStarted (d : Devices) (l : Nat) : Devices :=
  { d with
    ppu := { d.ppu with dot := 0, line := l, dispstat := lineFlags d l }
    iflag := if l = d.ppu.dispstat.toNat / 0x100 ∧ d.ppu.dispstat.getLsbD 5 = true then d.iflag ||| 4 else d.iflag }

theorem lineFlags_hblank (d : Devices) (l : Nat) : (lineFlags d l).getLsbD 1 = false := by
  unfold lineFlags
  split <;> simp

theorem lineFlags_match (d : Devices) (l : Nat) :
    (lineFlags d l).getLsbD 2 = decide (l = d.ppu.dispstat.toNat / 0x100) := by
  unfold lineFlags
  split <;> simp [*]

/-- The other bits of DISPSTAT stay at the start of a line. -/
theorem lineFlags_getLsbD (d : Devices) (l : Nat) {k : Nat} (hk : k < 16) (h1 : k ≠ 1) (h2 : k ≠ 2) :
    (lineFlags d l).getLsbD k = d.ppu.dispstat.getLsbD k := by
  have hmask : (0xFFF9 : Half).getLsbD k = true := by revert k; decide
  have hmatch : (4 : Half).getLsbD k = false := by revert k; decide
  rw [lineFlags, BitVec.getLsbD_or, BitVec.getLsbD_and, hmask, Bool.and_true]
  split
  · rw [hmatch, Bool.or_false]
  · simp

theorem enterLine_eq (d : Devices) (l : Nat) :
    enterLine d l =
      if l = 160 then enterVBlank (lineStarted d l)
      else if l = 0 then setDispstat (lineStarted d l) (lineFlags d l &&& 0xFFFE)
      else lineStarted d l := by
  have hstart : lineStarted d l =
      (if decide (l = d.ppu.dispstat.toNat / 0x100) then
        raiseIfEnabled { d with ppu := { d.ppu with dot := 0, line := l, dispstat := lineFlags d l } } 5 2
      else { d with ppu := { d.ppu with dot := 0, line := l, dispstat := lineFlags d l } }) := by
    simp only [lineStarted, raiseIfEnabled_eq, lineFlags_getLsbD d l (k := 5) (by decide) (by decide) (by decide),
      decide_eq_true_eq]
    by_cases hit : l = d.ppu.dispstat.toNat / 0x100
    · rw [if_pos hit]
      simp only [← hit, true_and]
      rfl
    · rw [if_neg hit]
      simp only [hit, false_and, if_false]
  have hflags : (lineStarted d l).ppu.dispstat = lineFlags d l := rfl
  rw [← hflags, hstart]
  simp only [lineFlags, enterLine, decide_eq_true_eq]

end Sys2Proof.Machine
end


section
/-! Timers: their control, and the cycle in which one runs alone (60_exceptions.md R651 to R655). -/

open Sys2Proof

namespace Sys2Proof.Machine

/-! ### Timers -/

/-- A start reloads the counter and clears the phase (60_exceptions.md R655). -/
theorem timerWriteCtl_start {t : Timer} {v : Half} (hv : v.getLsbD 7 = true) (ht : t.ctl.getLsbD 7 = false) :
    timerWriteCtl t v = { t with ctl := v &&& 0x00C7, counter := t.reload, phase := 0 } := by
  have hbit : (v &&& 0x00C7).getLsbD 7 = true := by simp [hv]
  rw [timerWriteCtl, if_pos hbit, ht]
  rfl

/-- A stop, and a write to a running timer, keep counter and reload (R655). -/
theorem timerWriteCtl_keeps_counter {t : Timer} {v : Half} (h : v.getLsbD 7 = false ∨ t.ctl.getLsbD 7 = true) :
    (timerWriteCtl t v).counter = t.counter := by
  have hbit : (v &&& 0x00C7).getLsbD 7 = v.getLsbD 7 := by simp
  unfold timerWriteCtl
  simp only [hbit]
  rcases h with hstop | hrunning
  · rw [hstop]
    rfl
  · rw [if_pos hrunning]
    split <;> rfl

theorem timerWriteCtl_reload (t : Timer) (v : Half) : (timerWriteCtl t v).reload = t.reload := by
  unfold timerWriteCtl
  dsimp only
  split
  · split <;> rfl
  · rfl

section
variable {d : Devices} {n : Fin 4} (h : d.timers[n].ctl.getLsbD 7 = false) (inc : Devices → Devices)
include h

/-- A stopped timer does not tick (R652). -/
theorem timerTick_stopped : timerTick n inc d = d := by
  have hidle : (timerRunning d.timers[n] && !timerCascades n d.timers[n]) = false := by
    rw [timerRunning, h, Bool.false_and]
  unfold timerTick
  simp only [hidle, Bool.false_eq_true, if_false]

/-- No overflow cascades into a stopped timer (R654). -/
theorem cascadeInto_stopped : cascadeInto n inc d = d := by
  rw [cascadeInto, timerRunning, h]
  rfl

end

section
variable {d : Devices} {n : Fin 4} {t : Timer} (ht : d.timers[n] = t) (next : Devices → Devices)
include ht

/-- An overflow reloads the counter, requests the interrupt if enabled, cascades, and clocks the audio FIFOs (R653). -/
theorem timerIncrement_overflow (hover : t.counter = 0xFFFF) :
    timerIncrement n next d =
      clockFifos
        (next
          { d with
            timers := d.timers.set n { t with counter := t.reload }
            iflag := if t.ctl.getLsbD 6 then d.iflag ||| BitVec.ofNat 16 (2 ^ (3 + n.val)) else d.iflag })
        n.val := by
  subst ht
  unfold timerIncrement
  simp only [if_pos hover]
  split <;> rfl

theorem timerIncrement_count (hcount : t.counter ≠ 0xFFFF) :
    timerIncrement n next d = setTimer d n { t with counter := t.counter + 1 } := by
  subst ht
  unfold timerIncrement
  simp only [if_neg hcount]

end

/-- Timer 0 without a prescaler counts each cycle (R651, R652). -/
theorem timerTick_zero_counts {d : Devices} (inc : Devices → Devices)
    (hrun : d.timers[(0 : Fin 4)].ctl.getLsbD 7 = true) (hperiod : d.timers[(0 : Fin 4)].ctl.toNat % 4 = 0) :
    timerTick 0 inc d = inc (setTimer d 0 { d.timers[(0 : Fin 4)] with phase := 0 }) := by
  have hone : timerPeriod d.timers[(0 : Fin 4)].ctl = 1 := by
    rw [timerPeriod, hperiod]
    rfl
  have hticks : (timerRunning d.timers[(0 : Fin 4)] && !timerCascades 0 d.timers[(0 : Fin 4)]) = true := by
    simp only [timerRunning, hrun, timerCascades, ne_eq, not_true, decide_false, Bool.and_false, Bool.not_false,
      Bool.and_self]
  unfold timerTick
  simp only [hticks, hone, if_true, Nat.le_add_left]

theorem setTimer_timers_set (d : Devices) (n : Fin 4) (t u : Timer) :
    (setTimer d n t).timers.set n u = d.timers.set n u := Vector.set_set ..

/-- The devices after timer 0 counts by one, or at 0xFFFF reloads and requests its interrupt if enabled (R653). -/
def timerZeroCounted (d : Devices) (t : Timer) : Devices :=
  { d with
    timers := d.timers.set 0 { t with counter := if t.counter = 0xFFFF then t.reload else t.counter + 1, phase := 0 }
    iflag := if t.counter = 0xFFFF ∧ t.ctl.getLsbD 6 = true then d.iflag ||| 8 else d.iflag }

section
variable {d : Devices} {t : Timer}

/-- The other timers stay where timer 0 counts. -/
theorem timerZeroCounted_stopped {e : Devices} (he : FifoFrame (timerZeroCounted d t) e) {n : Fin 4} (hn : n ≠ 0)
    (h : d.timers[n].ctl.getLsbD 7 = false) : e.timers[n].ctl.getLsbD 7 = false := by
  obtain ⟨_, _, _, _, rfl⟩ := he
  have hne : 0 ≠ n.val := fun h => hn (Fin.ext h.symm)
  show ((d.timers.set 0 _)[n.val]).ctl.getLsbD 7 = false
  rwa [Vector.getElem_set_ne _ _ hne]

theorem timerInc0_alone (h1 : d.timers[(1 : Fin 4)].ctl.getLsbD 7 = false) :
    FifoFrame (timerZeroCounted d t) (timerInc0 (setTimer d 0 { t with phase := 0 })) := by
  have hself : (setTimer d 0 { t with phase := 0 }).timers[(0 : Fin 4)] = { t with phase := 0 } :=
    Vector.getElem_set_self _
  unfold timerInc0
  by_cases hover : t.counter = 0xFFFF
  · rw [timerIncrement_overflow hself _ hover, cascadeInto_stopped]
    · have hcounted : timerZeroCounted d t =
        { setTimer d 0 { t with phase := 0 } with
          timers := (setTimer d 0 { t with phase := 0 }).timers.set (0 : Fin 4)
            { t with phase := 0, counter := t.reload }
          iflag := if t.ctl.getLsbD 6 then d.iflag ||| 8 else d.iflag } := by
        simp only [timerZeroCounted, setTimer_timers_set, hover, true_and, if_true]
        rfl
      rw [hcounted]
      exact clockFifos_frame _ _
    · simpa [setTimer] using h1
  · rw [timerIncrement_count hself _ hover]
    have hcounted : timerZeroCounted d t = setTimer (setTimer d 0 { t with phase := 0 }) 0
        { t with phase := 0, counter := t.counter + 1 } := by
      simp only [timerZeroCounted, setTimer, Vector.set_set, hover, false_and, if_false]
      rfl
    rw [hcounted]
    exact .refl _

/-- The timers after a cycle in which timer 0 alone runs, without a prescaler. -/
theorem tickTimers_alone (ht : d.timers[(0 : Fin 4)] = t) (hrun : t.ctl.getLsbD 7 = true)
    (hperiod : t.ctl.toNat % 4 = 0) (hstopped : ∀ n : Fin 4, n ≠ 0 → d.timers[n].ctl.getLsbD 7 = false) :
    FifoFrame (timerZeroCounted d t) (tickTimers d) := by
  have hzero : FifoFrame (timerZeroCounted d t) (timerTick 0 timerInc0 d) := by
    rw [timerTick_zero_counts _ (ht ▸ hrun) (ht ▸ hperiod), ht]
    exact timerInc0_alone (hstopped 1 (by decide))
  have hidle {n : Fin 4} (hn : n ≠ 0) (inc : Devices → Devices) :
      timerTick n inc (timerTick 0 timerInc0 d) = timerTick 0 timerInc0 d :=
    timerTick_stopped (timerZeroCounted_stopped hzero hn (hstopped n hn)) inc
  rw [tickTimers, hidle (n := 1) (by decide), hidle (n := 2) (by decide), hidle (n := 3) (by decide)]
  exact hzero

end

end Sys2Proof.Machine

open Sys2Proof.Machine

/-- Settles O50: the three cases of a write of TMnCNT_H, and the cycle in which timer 0 alone runs. -/
theorem timerControlAndCount : Obligations.TimerControlAndCount := by
  refine ⟨fun t v => ⟨timerWriteCtl_ctl t v, timerWriteCtl_reload t v, fun hv ht => ?_, timerWriteCtl_keeps_counter⟩,
    fun d hrun hperiod h1 h2 h3 => ?_⟩
  · rw [timerWriteCtl_start hv ht]
    exact ⟨rfl, rfl⟩
  · have hstopped (n : Fin 4) (hn : n ≠ 0) : d.timers[n].ctl.getLsbD 7 = false := by
      fin_cases n
      · exact absurd rfl hn
      · exact h1
      · exact h2
      · exact h3
    obtain ⟨_, _, _, _, htick⟩ := tickTimers_alone (t := d.timers[0]) rfl hrun hperiod hstopped
    rw [htick]
    exact ⟨congrArg Timer.counter (Vector.getElem_set_self _), rfl⟩
end


section
/-! The beam, dot by dot (64_ppu.md R741, R742). -/

open Sys2Proof

namespace Sys2Proof.Machine

variable {d : Devices}

theorem tickPpu_hblank (h : d.ppu.dot = 959) :
    tickPpu d = enterHBlank { d with ppu := { d.ppu with dot := 960 } } := by
  simp [tickPpu, h]

theorem tickPpu_line (h : d.ppu.dot = 1231) (hl : d.ppu.line < 228) :
    tickPpu d = enterLine d (if d.ppu.line = 227 then 0 else d.ppu.line + 1) := by
  have hwrap : (228 ≤ d.ppu.line + 1) = (d.ppu.line = 227) := by rw [eq_iff_iff]; omega
  simp [tickPpu, h, hwrap]

theorem tickPpu_dot (h : d.ppu.dot < 1232) (h1 : d.ppu.dot ≠ 959) (h2 : d.ppu.dot ≠ 1231) :
    tickPpu d = { d with ppu := { d.ppu with dot := d.ppu.dot + 1 } } := by
  unfold tickPpu
  dsimp only
  rw [if_neg (by omega), if_neg (by omega)]

/-! ### The start of a line, part by part -/

variable (d) (l : Nat)

theorem enterLine_beam : (enterLine d l).ppu.dot = 0 ∧ (enterLine d l).ppu.line = l := by
  rw [enterLine_eq]
  split
  · obtain ⟨c, hc⟩ := enterVBlank_frame (lineStarted d l)
    rw [hc]
    exact ⟨rfl, rfl⟩
  · split <;> exact ⟨rfl, rfl⟩

/-- The frame is published at line 160 (R743). -/
theorem enterLine_front : (enterLine d l).ppu.front = if l = 160 then d.ppu.back else d.ppu.front := by
  rw [enterLine_eq]
  split
  · obtain ⟨c, hc⟩ := enterVBlank_frame (lineStarted d l)
    rw [hc]
    rfl
  · split <;> rfl

/-- DISPSTAT at line l: the VBlank flag is set at line 160 and cleared at line 0. -/
theorem enterLine_dispstat :
    (enterLine d l).ppu.dispstat =
      if l = 160 then lineFlags d l ||| 1 else if l = 0 then lineFlags d l &&& 0xFFFE else lineFlags d l := by
  rw [enterLine_eq]
  split
  · obtain ⟨c, hc⟩ := enterVBlank_frame (lineStarted d l)
    rw [hc]
    rfl
  · split <;> rfl

/-- The VBlank flag is bit 0 alone. -/
theorem enterLine_dispstat_getLsbD {k : Nat} (hk : k < 16) (h0 : k ≠ 0) :
    (enterLine d l).ppu.dispstat.getLsbD k = (lineFlags d l).getLsbD k := by
  have hset : (1 : Half).getLsbD k = false := by revert k; decide
  have hclear : (0xFFFE : Half).getLsbD k = true := by revert k; decide
  rw [enterLine_dispstat]
  split
  · rw [BitVec.getLsbD_or, hset, Bool.or_false]
  · split
    · rw [BitVec.getLsbD_and, hclear, Bool.and_true]
    · rfl

theorem enterLine_vblank :
    (enterLine d l).ppu.dispstat.getLsbD 0 =
      if l = 160 then true else if l = 0 then false else d.ppu.dispstat.getLsbD 0 := by
  have hkept := lineFlags_getLsbD d l (k := 0) (by decide) (by decide) (by decide)
  rw [enterLine_dispstat]
  split
  · simp
  · split
    · simp
    · exact hkept

/-- The requests at the start of a line: the VBlank one at line 160, the match one where VCOUNT matches. -/
theorem enterLine_iflag :
    (enterLine d l).iflag =
      if l = 160 ∧ d.ppu.dispstat.getLsbD 3 = true then (lineStarted d l).iflag ||| 1 else (lineStarted d l).iflag := by
  have henable : (lineStarted d l).ppu.dispstat.getLsbD 3 = d.ppu.dispstat.getLsbD 3 :=
    lineFlags_getLsbD d l (by decide) (by decide) (by decide)
  rw [enterLine_eq]
  by_cases h160 : l = 160
  · obtain ⟨c, hc⟩ := enterVBlank_frame (lineStarted d l)
    rw [if_pos h160, hc]
    simp only [henable, eq_true h160, true_and]
  · rw [if_neg h160]
    simp only [h160, false_and, if_false]
    split <;> rfl

/-- A bit of IF after a request made under a condition and an enable bit. -/
theorem requested_getLsbD (p : Prop) [Decidable p] (b : Bool) (f m : Half) (k : Nat) :
    (if p ∧ b = true then f ||| m else f).getLsbD k = (f.getLsbD k || (decide p && b && m.getLsbD k)) := by
  by_cases hp : p
  · cases b <;> simp [hp]
  · simp [hp]

theorem enterLine_iflag_vblank :
    (enterLine d l).iflag.getLsbD 0 = (d.iflag.getLsbD 0 || (decide (l = 160) && d.ppu.dispstat.getLsbD 3)) := by
  rw [enterLine_iflag, requested_getLsbD, lineStarted, requested_getLsbD]
  simp

theorem enterLine_iflag_match :
    (enterLine d l).iflag.getLsbD 2 =
      (d.iflag.getLsbD 2 || (decide (l = d.ppu.dispstat.toNat / 0x100) && d.ppu.dispstat.getLsbD 5)) := by
  rw [enterLine_iflag, requested_getLsbD, lineStarted, requested_getLsbD]
  simp

end Sys2Proof.Machine

open Sys2Proof.Machine

/-- Settles O52: a dot is a move of the beam alone, the HBlank of a line, or the start of the next line. -/
theorem beamAndBlankFlags : Obligations.BeamAndBlankFlags := by
  intro d hline hdot
  dsimp only
  generalize hl : (if d.ppu.line = 227 then 0 else d.ppu.line + 1) = l
  refine ⟨fun h1 h2 => tickPpu_dot hdot h1 h2, fun h => ?_, fun h => ?_⟩
  · obtain ⟨b, w, x, y, c, hc⟩ := enterHBlank_frame { d with ppu := { d.ppu with dot := 960 } }
    rw [tickPpu_hblank h, hc]
    exact ⟨rfl, rfl, rfl, rfl, rfl⟩
  · obtain ⟨hd, hv⟩ := enterLine_beam d l
    have hhblank := (enterLine_dispstat_getLsbD d l (k := 1) (by decide) (by decide)).trans (lineFlags_hblank d l)
    have hmatch := (enterLine_dispstat_getLsbD d l (k := 2) (by decide) (by decide)).trans (lineFlags_match d l)
    rw [tickPpu_line h hline, hl]
    exact ⟨hd, hv, hhblank, by rw [hmatch, decide_eq_true_eq], enterLine_vblank d l, enterLine_front d l,
      enterLine_iflag_vblank d l, enterLine_iflag_match d l⟩
end


section
/-! The keypad's input and its interrupt (60_exceptions.md R660, R661). -/

open Sys2Proof

namespace Sys2Proof.Machine

theorem low10_eq_zero_iff (x : Half) : x &&& 0x03FF = 0 ↔ ∀ b < 10, x.getLsbD b = false := by
  have hmask (b : Nat) (hb : b < 16) : (0x03FF : Half).getLsbD b = decide (b < 10) := by revert b; decide
  constructor
  · intro h b hb
    have hbit : (x &&& 0x03FF).getLsbD b = x.getLsbD b := by
      rw [BitVec.getLsbD_and, hmask b (by omega), decide_eq_true hb, Bool.and_true]
    rw [← hbit, h]
    exact BitVec.getLsbD_zero
  · intro h
    refine BitVec.eq_of_getLsbD_eq fun b hb => ?_
    rw [BitVec.getLsbD_and, hmask b hb]
    by_cases hlow : b < 10
    · rw [h b hlow, Bool.false_and]
      exact BitVec.getLsbD_zero.symm
    · rw [decide_eq_false hlow, Bool.and_false]
      exact BitVec.getLsbD_zero.symm

/-- KEYINPUT from the host's buttons (R660). -/
def keyinputOf (pressed : BitVec 10) : Half := (~~~pressed).zeroExtend 16

theorem keyinputOf_getLsbD (pressed : BitVec 10) {b : Nat} (hb : b < 10) :
    (keyinputOf pressed).getLsbD b = !pressed.getLsbD b := by
  simp [keyinputOf, hb, Nat.lt_trans hb (by decide : 10 < 16)]

theorem keyinputOf_reserved (pressed : BitVec 10) : keyinputOf pressed &&& 0xFC00 = 0 := by
  refine BitVec.eq_of_getLsbD_eq fun b hb => ?_
  have hmask : 10 ≤ b ∨ (0xFC00 : Half).getLsbD b = false := by revert b; decide
  rw [BitVec.getLsbD_and]
  refine Eq.trans ?_ BitVec.getLsbD_zero.symm
  rcases hmask with hhigh | hlow
  · have hzero : (keyinputOf pressed).getLsbD b = false := by simp [keyinputOf, BitVec.getLsbD_of_ge _ _ hhigh]
    rw [hzero, Bool.false_and]
  · rw [hlow, Bool.and_false]

/-- KEYCNT's condition speaks of the selected buttons: all of them pressed, or any (R661). -/
theorem keypadCondition_iff (k : Half) (pressed : BitVec 10) :
    keypadCondition (keyinputOf pressed) k = true ↔
      if k.getLsbD 15 then ∀ b < 10, k.getLsbD b = true → pressed.getLsbD b = true
      else ∃ b < 10, k.getLsbD b = true ∧ pressed.getLsbD b = true := by
  unfold keypadCondition
  split
  · rw [decide_eq_true_eq, low10_eq_zero_iff]
    refine forall₂_congr fun b hb => ?_
    rw [BitVec.getLsbD_and, keyinputOf_getLsbD pressed hb]
    cases k.getLsbD b <;> simp
  · rw [decide_eq_true_eq, ne_eq, low10_eq_zero_iff]
    simp only [not_forall, exists_prop]
    refine exists_congr fun b => and_congr_right fun hb => ?_
    have hlt : b < 16 := by omega
    rw [BitVec.getLsbD_and, BitVec.getLsbD_not, keyinputOf_getLsbD pressed hb]
    simp [hlt, and_comm]

end Sys2Proof.Machine

open Sys2Proof.Machine

/-- Settles O53: the keypad's evaluation after the input. -/
theorem keypadInput : Obligations.KeypadInput := by
  intro s pressed
  dsimp only
  have hcond := keypadCondition_iff s.dev.keycnt pressed
  have hupdate : updateInput s pressed =
      { s with dev := evalKeypad { s.dev with keyinput := keyinputOf pressed } } := rfl
  have heval : evalKeypad { s.dev with keyinput := keyinputOf pressed } =
      if s.dev.keycnt.getLsbD 14 && keypadCondition (keyinputOf pressed) s.dev.keycnt
      then raiseIrq { s.dev with keyinput := keyinputOf pressed } 12
      else { s.dev with keyinput := keyinputOf pressed } := rfl
  have hkeyinput : (updateInput s pressed).dev.keyinput = keyinputOf pressed := by
    rw [hupdate, heval]
    split <;> rfl
  rw [hkeyinput, ← hcond, ← Bool.and_eq_true]
  refine ⟨fun b hb => keyinputOf_getLsbD pressed hb, keyinputOf_reserved pressed, fun hit => ?_, fun hit => ?_,
    rfl, rfl, rfl, rfl, rfl, rfl, rfl, rfl⟩
  · rw [hupdate, heval, if_pos hit]
    rfl
  · rw [hupdate, heval, if_neg hit]
end

section
/-! Writes of the interrupt registers and of DMAnCNT_H (60_exceptions.md R620 to R622, R641, 62_dma.md R701 to R706). -/

open Sys2Proof

namespace Sys2Proof.Machine

theorem and_full (v : Half) : v &&& 0xFFFF = v := BitVec.and_allOnes

/-- A halfword write replaces the whole register. -/
theorem mergeHalf_full (old v : Half) : mergeHalf old v 0xFFFF = v := by
  have hold : old &&& ~~~(0xFFFF : Half) = 0 := BitVec.and_zero
  rw [mergeHalf, hold, and_full]
  exact BitVec.zero_or

section
variable (d : Devices) (v : Word)

theorem busWrite_ie : busWrite d .half 0x04000200 v = notePort [0x100] (ioWrite16 d .ie (loHalf v) 0xFFFF) := rfl

theorem busWrite_iflag : busWrite d .half 0x04000202 v = notePort [0x101] (ioWrite16 d .iflag (loHalf v) 0xFFFF) := rfl

theorem busWrite_ime : busWrite d .half 0x04000208 v = notePort [0x104] (ioWrite16 d .ime (loHalf v) 0xFFFF) := rfl

theorem busWrite_postflgHaltcnt :
    busWrite d .half 0x04000300 v = notePort [0x180] (ioWrite16 d .postflgHaltcnt (loHalf v) 0xFFFF) := rfl

/-- DMAnCNT_H stands twelve bytes after that of the channel before (62_dma.md R700). -/
theorem busWrite_dmaCntH (n : Fin 4) :
    busWrite d .half (0x040000BA + BitVec.ofNat 32 (12 * n.val)) v =
      ioWrite16 (notePort (portHalves .half (0x040000BA + 12 * n.val)) d) (.dmaCntH n) (loHalf v) 0xFFFF := by
  have ha : alignTo .half (0x040000BA + BitVec.ofNat 32 (12 * n.val) : Word).toNat = 0x040000BA + 12 * n.val := by
    revert n
    decide
  have hregion : regionOf (0x040000BA + 12 * n.val) = .io := by
    revert n
    decide
  have hinside : (0x040000BA + 12 * n.val) % 0x1000000 < 0x400 := by
    revert n
    decide
  have hdecode : ioDecode ((0x040000BA + 12 * n.val) % 0x400 / 2 * 2) = some (.dmaCntH n) := by
    revert n
    decide
  simp only [busWrite, ha, hregion, ioWrite, if_pos hinside, ioWriteAt, hdecode]

end

/-- A halfword write of POSTFLG and HALTCNT sets both (60_exceptions.md R641, 70_reset_and_hazards.md R853). -/
theorem ioWrite16_postflgHaltcnt (d : Devices) (h : Half) :
    ioWrite16 d .postflgHaltcnt h 0xFFFF =
      { d with postflg := BitVec.ofNat 8 h.toNat &&& 1, run := .halted (if h.getLsbD 15 then .stop else .halt) } := rfl

/-- POSTFLG keeps bit 0 of the low byte (R853). -/
theorem postflgBit (v : Word) : BitVec.ofNat 8 (loHalf v).toNat &&& 1 = BitVec.ofNat 8 (v.toNat % 2) := by
  have hlo : (loHalf v).toNat = v.toNat % 65536 := BitVec.toNat_ofNat ..
  have hmod : v.toNat % 65536 % 256 % 2 = v.toNat % 2 % 256 := by omega
  refine BitVec.eq_of_toNat_eq ?_
  rw [BitVec.toNat_and, BitVec.toNat_ofNat, BitVec.toNat_ofNat, hlo, ← hmod]
  exact Nat.and_one_is_mod _

/-! ### DMAnCNT_H -/

/-- Units of a count field: its value, or the most where it is 0 (62_dma.md R702). -/
theorem dmaUnits_toNat (n : Fin 4) (cntL : Half) :
    let most := if n = 3 then 0x10000 else 0x4000
    (dmaUnits n cntL).toNat = if cntL.toNat % most = 0 then most else cntL.toNat % most := by
  have hzero (x : Half) : x = 0 ↔ x.toNat = 0 := by rw [← BitVec.toNat_inj]; rfl
  have hwide (x : Half) : (x.zeroExtend 17).toNat = x.toNat := by
    rw [BitVec.toNat_setWidth]
    omega
  unfold dmaUnits
  by_cases hn : n = 3
  · have hmod : cntL.toNat % 0x10000 = cntL.toNat := by omega
    simp only [if_pos hn, hmod, hzero]
    split
    · rfl
    · exact hwide cntL
  · have hmask : (cntL &&& 0x3FFF).toNat = cntL.toNat % 0x4000 :=
      (BitVec.toNat_and ..).trans (Nat.and_two_pow_sub_one_eq_mod _ 14)
    simp only [if_neg hn, hzero, ← hmask]
    split
    · rfl
    · exact hwide _

/-- The stored control keeps the enable bit and the timing (62_dma.md R703). -/
theorem dmaCntHMask_enable (n : Fin 4) (h : Half) : (h &&& dmaCntHMask n).getLsbD 15 = h.getLsbD 15 := by
  have hmask : (dmaCntHMask n).getLsbD 15 = true := by revert n; decide
  rw [BitVec.getLsbD_and, hmask, Bool.and_true]

theorem dmaCntHMask_timing (n : Fin 4) (h : Half) :
    (h &&& dmaCntHMask n).toNat / 0x1000 % 4 = h.toNat / 0x1000 % 4 := by
  have hmask : (dmaCntHMask n).toNat / 2 ^ 12 = 2 ^ 4 - 1 := by revert n; decide
  rw [BitVec.toNat_and, show 0x1000 = 2 ^ 12 from rfl, Nat.and_div_two_pow, hmask, Nat.and_two_pow_sub_one_eq_mod]
  omega

section
variable (n : Fin 4) (c : DmaChannel) {h : Half}

/-- A write stores the control and leaves the other registers (R703). -/
theorem dmaWriteCntH_registers (h : Half) :
    (dmaWriteCntH n c h).cntH = h &&& dmaCntHMask n ∧ (dmaWriteCntH n c h).sad = c.sad ∧
      (dmaWriteCntH n c h).dad = c.dad ∧ (dmaWriteCntH n c h).cntL = c.cntL := by
  unfold dmaWriteCntH
  dsimp only
  split
  · split <;> exact ⟨rfl, rfl, rfl, rfl⟩
  · exact ⟨rfl, rfl, rfl, rfl⟩

/-- An enable latches the working registers and arms an immediate transfer (R704). -/
theorem dmaWriteCntH_enable (hon : h.getLsbD 15 = true) (hwas : c.cntH.getLsbD 15 = false) :
    dmaWriteCntH n c h =
      { c with
        cntH := h &&& dmaCntHMask n, src := c.sad, dst := c.dad, count := dmaUnits n c.cntL
        pending := decide (h.toNat / 0x1000 % 4 = 0) } := by
  simp only [dmaWriteCntH, dmaCntHMask_enable, dmaCntHMask_timing, hon, hwas, if_true, Bool.false_eq_true, if_false]

/-- A write to an enabled channel that leaves it enabled is no enable (R704). -/
theorem dmaWriteCntH_enabled (hon : h.getLsbD 15 = true) (hwas : c.cntH.getLsbD 15 = true) :
    dmaWriteCntH n c h = { c with cntH := h &&& dmaCntHMask n } := by
  simp only [dmaWriteCntH, dmaCntHMask_enable, hon, hwas, if_true]

/-- A disarm drops the pending trigger (R704). -/
theorem dmaWriteCntH_disable (hoff : h.getLsbD 15 = false) :
    dmaWriteCntH n c h = { c with cntH := h &&& dmaCntHMask n, pending := false } := by
  simp only [dmaWriteCntH, dmaCntHMask_enable, hoff, Bool.false_eq_true, if_false]

end

/-- The channel after a halfword write of its DMAnCNT_H. -/
theorem busWrite_dmaCntH_channel (d : Devices) (n : Fin 4) (v : Word) :
    (busWrite d .half (0x040000BA + BitVec.ofNat 32 (12 * n.val)) v).dma[n] = dmaWriteCntH n d.dma[n] (loHalf v) := by
  rw [busWrite_dmaCntH, ioWrite16, mergeHalf_full]
  exact Vector.getElem_set_self _

end Sys2Proof.Machine

open Sys2Proof.Machine

/-- Settles O49: each register by its own write rule, under the full mask. -/
theorem interruptRegisterWrites : Obligations.InterruptRegisterWrites := by
  intro d v
  dsimp only
  refine ⟨?_, ?_, ?_, ?_, busWrite_haltcnt d v⟩
  · rw [busWrite_ie, ioWrite16, mergeHalf_full]
    rfl
  · rw [busWrite_iflag, ioWrite16, and_full]
    rfl
  · rw [busWrite_ime, ioWrite16, mergeHalf_full]
    rfl
  · rw [busWrite_postflgHaltcnt, ioWrite16_postflgHaltcnt, postflgBit]
    rfl

/-- Settles O51: the channel written is one that an enable, a write while enabled, or a disarm leaves. -/
theorem dmaEnable : Obligations.DmaEnable := by
  intro d n v
  dsimp only
  rw [busWrite_dmaCntH_channel]
  refine ⟨dmaWriteCntH_registers n _ _, fun hon hwas => ?_, fun hon hwas => ?_, fun hoff => ?_⟩
  · rw [dmaWriteCntH_enable n _ (h := loHalf v) hon hwas]
    exact ⟨rfl, rfl, dmaUnits_toNat n _, decide_eq_true_iff⟩
  · rw [dmaWriteCntH_enabled n _ (h := loHalf v) hon hwas]
    exact ⟨rfl, rfl, rfl, rfl⟩
  · rw [dmaWriteCntH_disable n _ (h := loHalf v) hoff]
    exact ⟨rfl, rfl, rfl, rfl⟩
end


section
/-! The steps that run no instruction, and the state after reset (70_reset_and_hazards.md R850, R856). -/

open Sys2Proof Sys2Proof.Machine

/-- Settles O54, by run state. -/
theorem idleSteps : Obligations.IdleSteps := by
  intro s
  refine ⟨fun k hrun => ?_, fun hrun hwake => ?_, fun hrun hpc hskip => ?_⟩
  · simp only [step, stepMachine, hrun]
  · simp only [step, stepMachine, hrun, stoppedStep, hwake, ne_eq, not_true, if_false]
  · have hhit : breakpointHit s = true := by simp [breakpointHit, hpc, hskip]
    simp only [step, stepMachine, hrun, runningStep, hhit, if_true]

/-- Settles O57: the registers have their reset values, and RAM is the canonical memory of MEM_INIT. -/
theorem resetMeetsInvariants : Obligations.ResetMeetsInvariants :=
  ⟨⟨rfl, rfl⟩, reset_memory_wf, resetDevices_inBounds Devices.reset, rfl⟩
end

section
/-! CYCLE_COST and the other parameters stay through device cycles and transfers (92_eei_decisions.md D7). -/

open Sys2Proof

namespace Sys2Proof.Machine

@[simp] theorem evalKeypad_params (d : Devices) : (evalKeypad d).params = d.params := by
  unfold evalKeypad
  split <;> rfl

theorem ioWrite16_params (d : Devices) (r : IoReg) (v mask : Half) : (ioWrite16 d r v mask).params = d.params := by
  unfold ioWrite16
  cases r with
  | sound i =>
    dsimp only
    split <;> rfl
  | keycnt => exact evalKeypad_params _
  | postflgHaltcnt =>
    dsimp only
    unfold writeHaltcnt writePostflg
    split <;> split <;> rfl
  | _ => rfl

theorem busWrite_params (d : Devices) (w : Width) (a v : Word) : (busWrite d w a v).params = d.params :=
  busWrite_keeps (P := fun e => e.params = d.params) (fun e r v mask he => (ioWrite16_params e r v mask).trans he)
    (fun _ _ _ _ _ he => he) w a v rfl

theorem tickTimers_params (d : Devices) : (tickTimers d).params = d.params := by
  obtain ⟨_, _, _, _, _, _, h⟩ := tickTimers_frame d
  rw [h]

theorem enterLine_params (d : Devices) (l : Nat) : (enterLine d l).params = d.params := by
  rw [enterLine_eq]
  split
  · obtain ⟨_, h⟩ := enterVBlank_frame (lineStarted d l)
    rw [h]
    rfl
  · split <;> rfl

theorem tickPpu_params (d : Devices) : (tickPpu d).params = d.params := by
  unfold tickPpu
  dsimp only
  split
  · obtain ⟨_, _, _, _, _, h⟩ := enterHBlank_frame { d with ppu := { d.ppu with dot := d.ppu.dot + 1 } }
    rw [h]
  · split
    · exact enterLine_params ..
    · rfl

theorem dmaUnit_params (r : DmaRun) (q : Access) (d : Devices) : (dmaUnit r q d).1.params = d.params := by
  unfold dmaUnit
  dsimp only
  refine (busWrite_params ..).trans ?_
  split <;> rfl

theorem dmaTransfer_params (d : Devices) (n : Fin 4) : (dmaTransfer d n).1.params = d.params := by
  have hend (r : DmaRun) (e : Devices) : (dmaEnd r e).params = e.params := by
    unfold dmaEnd
    dsimp only
    split <;> split <;> rfl
  have hloop (r : DmaRun) (k : Nat) (e : Devices) (c : Nat) : (dmaLoop r k .nonseq e c).1.params = e.params :=
    dmaLoop_keeps (P := fun x => x.params = e.params) r (fun q x hx => (dmaUnit_params r q x).trans hx) k _ e c rfl
  exact (hend _ _).trans (hloop _ _ _ _)

theorem serveDma_params {d : Devices} {r : Devices × Nat} (h : serveDma d = .ok r) : r.1.params = d.params :=
  serveDma_keeps (P := fun e => e.params = d.params) (fun e n he => (dmaTransfer_params e n).trans he) rfl h

theorem advanceLoop_params {c : Nat} {d : Devices} {r : Devices × Nat} (h : advanceLoop c d = .ok r) :
    r.1.params = d.params := by
  refine advanceLoop_keeps (P := fun e => e.params = d.params) (fun e r he hr => ?_) rfl h
  exact (serveDma_params hr).trans (((tickPpu_params _).trans (tickTimers_params e)).trans he)

end Sys2Proof.Machine
end


section
/-! What the parts of a step do to the CPU (70_reset_and_hazards.md R856, R857): devices and cycles pass, the poll may
take one IRQ, and what stands around it touches neither registers nor counts. -/

open Sys2Proof

namespace Sys2Proof.Machine

theorem sameCpu.trans {s t u : State} (h : sameCpu s t) (h' : sameCpu t u) : sameCpu s u := by
  obtain ⟨hregs, hpc, hcpsr, h1, h2, h3, h4, h5⟩ := h
  obtain ⟨hregs', hpc', hcpsr', h1', h2', h3', h4', h5'⟩ := h'
  exact ⟨hregs'.trans hregs, hpc'.trans hpc, hcpsr'.trans hcpsr, h1'.trans h1, h2'.trans h2, h3'.trans h3, h4'.trans h4,
    h5'.trans h5⟩

/-- Devices, cycles and debug state are no part of the CPU, nor of what an IRQ entry leaves of it. -/
theorem sameCpu_irqEntry (s : State) (d : Devices) (g : Debug) (n c : Nat) :
    sameCpu (enteredException s modeIrq 0x18 (s.pc + 4) 0)
      (enteredException { s with dev := d, dbg := g, stepCycles := n } modeIrq 0x18 (s.pc + 4) c) :=
  ⟨rfl, rfl, rfl, rfl, rfl, rfl, rfl, rfl⟩

/-- The poll at the end of a step leaves the CPU and the devices, or takes the IRQ and passes its cycles; the cycles only
grow, and all of them are counted (R624, R856). -/
theorem pollAndCount_cases {s t : State} (h : pollAndCount s = .next t) :
    t.cycleCount = s.cycleCount + BitVec.ofNat 64 t.stepCycles ∧ s.stepCycles ≤ t.stepCycles ∧
      ((irqTaken s = false ∧ sameCpu s t ∧ t.dev = s.dev) ∨
        (irqTaken s = true ∧ sameCpu (enteredException s modeIrq 0x18 (s.pc + 4) 0) t ∧
          s.stepCycles + irqCycles s.dev.params ≤ t.stepCycles)) := by
  obtain ⟨u, hu, ht⟩ := andThen_eq_next h
  cases ht
  unfold pollAndAdvance at hu
  split at hu
  case isTrue htaken =>
    rw [pollInterrupts_taken htaken] at hu
    obtain ⟨d, n, -, rfl⟩ := advanceDevices_eq_next hu
    have hcycles : s.stepCycles + irqCycles s.dev.params ≤ s.stepCycles + irqCycles s.dev.params + n :=
      Nat.le_add_right _ _
    exact ⟨rfl, le_trans (Nat.le_add_right _ _) hcycles,
      .inr ⟨htaken, ⟨rfl, rfl, rfl, rfl, rfl, rfl, rfl, rfl⟩, hcycles⟩⟩
  case isFalse htaken =>
    cases hu
    exact ⟨rfl, le_refl _, .inl ⟨Bool.eq_false_iff.mpr htaken, ⟨rfl, rfl, rfl, rfl, rfl, rfl, rfl, rfl⟩, rfl⟩⟩

/-- What stands after the poll leaves the CPU and the counts. -/
theorem endRunning_frame (b s : State) :
    ∃ d g l, endRunning b s = { s with dev := d, dbg := g, stale := l } := by
  unfold endRunning
  dsimp only
  split <;> exact ⟨_, _, _, rfl⟩

theorem keypad_eq (s : State) : s.keypad = { s with dev := evalKeypad s.dev } := rfl

/-- An evaluation of the keypad requests its interrupt or does nothing (60_exceptions.md R661). -/
theorem evalKeypad_frame (d : Devices) : ∃ f, evalKeypad d = { d with iflag := f } := by
  unfold evalKeypad
  split
  · exact ⟨_, rfl⟩
  · exact ⟨d.iflag, rfl⟩

/-! ### What precedes the instruction -/

theorem pushSnapshot_frame (s : State) : ∃ g, s.pushSnapshot = { s with dbg := g } := by
  unfold State.pushSnapshot
  split
  · exact ⟨_, rfl⟩
  · exact ⟨s.dbg, rfl⟩

theorem prefetch_frame (s : State) : ∃ p l, s.prefetch = { s with prefetchLatch := p, biosLatch := l } := by
  unfold State.prefetch
  dsimp only
  split
  · split
    · exact ⟨_, _, rfl⟩
    · exact ⟨_, s.biosLatch, rfl⟩
  · exact ⟨s.prefetchLatch, s.biosLatch, rfl⟩

/-- The snapshot and the prefetch change the debug state and the latches alone. -/
theorem beforeInstr_frame (s : State) :
    ∃ g p l, beforeInstr s =
      { s with
        dev := { s.dev with portStored := [] }, stepCycles := 0, dbg := g, prefetchLatch := p, biosLatch := l } := by
  obtain ⟨g, hg⟩ := pushSnapshot_frame { s.noStores with stepCycles := 0 }
  obtain ⟨p, l, hp⟩ := prefetch_frame { s.noStores with stepCycles := 0, dbg := g }
  refine ⟨g, p, l, ?_⟩
  rw [beforeInstr, hg, hp]
  rfl

/-- Where no store made the slot at pc stale, the fetch is of its present word (R870). -/
theorem fetch_fresh {s : State} (h : staleWords s.stale s.pc = []) : s.fetch = (s.fetchAt s.pc, s) := by
  unfold State.fetch
  split
  · rfl
  · rw [h]
    rfl

/-- A Running step that no breakpoint stops runs the instruction fetched. -/
theorem step_running {s : State} (hrun : s.dev.run = .running) (hbp : breakpointHit s = false) :
    step s = andThen (exec (fetchInstr s).1 (fetchInstr s).2) fun t => afterInstr (beforeInstr s) t.priced := by
  unfold step stepMachine
  rw [hrun]
  simp only [runningStep, hbp, Bool.false_eq_true, if_false]
  rfl

end Sys2Proof.Machine

open Sys2Proof.Machine

/-- Settles O5: the fetch is of the present word, or of one that a store overwrote, in the state after the prefetch. -/
theorem stepRunsDecodedInstruction : Obligations.StepRunsDecodedInstruction := by
  intro s hrun hbp
  obtain ⟨g, p, l, hbefore⟩ := beforeInstr_frame s
  have hpc : (beforeInstr s).pc = s.pc := by rw [hbefore]
  have hstale : (beforeInstr s).stale = s.stale := by rw [hbefore]
  refine ⟨fun i hfresh hi => ?_, ?_, fun t => priced_table, ?_⟩
  · have hfetch : (beforeInstr s).fetch = ((beforeInstr s).fetchAt s.pc, beforeInstr s) := by
      rw [← hpc]
      exact fetch_fresh (by rw [hpc, hstale, hfresh])
    rw [step_running hrun hbp, fetchInstr, hfetch, hi]
  · obtain ⟨w, k, hw, hfetch⟩ := fetch_cases (beforeInstr s)
    rw [hpc, hstale] at hw
    have hfree : (beforeInstr s).freeCount = s.freeCount := by rw [hbefore]
    refine ⟨w, k, hw, ?_⟩
    rw [step_running hrun hbp, fetchInstr, hfetch, hfree]
  · rw [hbefore]
    exact ⟨⟨rfl, rfl, rfl, rfl, rfl, rfl, rfl, rfl⟩, rfl, rfl, rfl, rfl⟩

/-- Settles O6: the transfers and the advance change devices and cycles, and only the poll touches the CPU. -/
theorem afterInstructionOnlyAnIrqChangesTheCpu : Obligations.AfterInstructionOnlyAnIrqChangesTheCpu := by
  intro b m t h
  obtain ⟨u, hu, h⟩ := andThen_eq_next h
  obtain ⟨d, n, hserve, rfl⟩ := runImmediateDma_eq_next hu
  obtain ⟨v, hv, h⟩ := andThen_eq_next h
  obtain ⟨e, k, hadvance, rfl⟩ := advanceDevices_eq_next hv
  obtain ⟨w, hw, h⟩ := andThen_eq_next h
  cases h
  obtain ⟨_, _, _, hend⟩ := endRunning_frame b w
  have hparams : (evalKeypad e).params = m.dev.params := by
    rw [evalKeypad_params]
    exact (advanceLoop_params hadvance).trans (serveDma_params hserve)
  obtain ⟨hcount, hcycles, hpoll⟩ := pollAndCount_cases hw
  have hmore : m.stepCycles ≤ m.stepCycles + n + k := by omega
  rw [hend]
  refine ⟨hcount, hmore.trans hcycles, ?_⟩
  rcases hpoll with ⟨-, hcpu, -⟩ | ⟨htaken, hcpu, hentry⟩
  · exact .inl (hcpu : sameCpu m w)
  · obtain ⟨-, -, hmask, -⟩ := (irqTaken_iff _).1 htaken
    refine .inr ⟨hmask, (sameCpu_irqEntry m _ _ _ _).trans hcpu, ?_⟩
    have hirq : m.stepCycles + n + k + irqCycles (evalKeypad e).params ≤ w.stepCycles := hentry
    rw [hparams] at hirq
    show _ ≤ w.stepCycles
    omega

/-- Settles O55: the advance and the keypad change devices and cycles, and then the poll decides. -/
theorem haltedStepWakes : Obligations.HaltedStepWakes := by
  intro s t hrun h
  unfold step stepMachine at h
  rw [hrun] at h
  obtain ⟨a, ha, h⟩ := andThen_eq_next (o := advanceDevices _ _) h
  refine ⟨a, ha, ?_⟩
  obtain ⟨d, n, -, rfl⟩ := advanceDevices_eq_next ha
  obtain ⟨f, hf⟩ := evalKeypad_frame d
  rw [keypad_eq] at h ⊢
  simp only [hf] at h ⊢
  by_cases hpending : pendingIrqs { d with iflag := f } = 0
  · rw [if_neg (not_not.mpr hpending)] at h
    obtain ⟨hcount, hcycles, ⟨-, hcpu, hdev⟩ | ⟨htaken, -, -⟩⟩ := pollAndCount_cases h
    · exact ⟨.inl hcpu, hcount, (Nat.le_add_right _ _).trans hcycles, fun _ => ⟨hcpu, hdev⟩,
        fun hnot => absurd hpending hnot, fun hnot => absurd hpending hnot⟩
    · obtain ⟨-, hsome, -, -⟩ := (irqTaken_iff _).1 htaken
      exact absurd hpending hsome
  · rw [if_pos hpending] at h
    obtain ⟨hcount, hcycles, ⟨hnot, hcpu, hdev⟩ | ⟨htaken, hcpu, -⟩⟩ := pollAndCount_cases h
    · refine ⟨.inl hcpu, hcount, (Nat.le_add_right _ _).trans hcycles, fun hzero => absurd hzero hpending,
        fun _ _ => ⟨hcpu, congrArg Devices.run hdev⟩, fun _ hmask hime => ?_⟩
      have hdue := (irqTaken_iff _).not.mp (Bool.eq_false_iff.mp hnot)
      exact absurd ⟨hime, hpending, hmask, rfl⟩ hdue
    · obtain ⟨hime, -, hmask, -⟩ := (irqTaken_iff _).1 htaken
      have hentry := (sameCpu_irqEntry s _ s.dbg _ _).trans hcpu
      refine ⟨.inr hentry, hcount, (Nat.le_add_right _ _).trans hcycles, fun hzero => absurd hzero hpending,
        fun _ hmasked => ?_, fun _ _ _ => hentry⟩
      rcases hmasked with hi | hoff
      · exact absurd (hmask.symm.trans hi) Bool.false_ne_true
      · exact absurd (hoff.symm.trans hime) Bool.false_ne_true
end


section
/-! The multiplier's cycles (70_reset_and_hazards.md R881): equal leading bits as bounds of the word. -/

open Sys2Proof

namespace Sys2Proof.Machine

/-- Bits n and up are all zeros. -/
def zerosFrom (rs : Word) (n : Nat) : Prop := ∀ k, n ≤ k → k < 32 → rs.getLsbD k = false

/-- Bits n and up are all ones. -/
def onesFrom (rs : Word) (n : Nat) : Prop := ∀ k, n ≤ k → k < 32 → rs.getLsbD k = true

/-- Bits n and up are alike. -/
def sameFrom (rs : Word) (n : Nat) : Prop := zerosFrom rs n ∨ onesFrom rs n

theorem zerosFrom_iff (rs : Word) (n : Nat) : zerosFrom rs n ↔ rs.toNat < 2 ^ n := by
  constructor
  · intro h
    refine Nat.lt_pow_two_of_testBit _ fun k hk => ?_
    rcases Nat.lt_or_ge k 32 with hlt | hge
    · exact h k hk hlt
    · exact BitVec.getLsbD_of_ge rs k hge
  · intro h k hk _
    exact Nat.testBit_lt_two_pow (h.trans_le (Nat.pow_le_pow_right (by decide) hk))

theorem onesFrom_iff (rs : Word) (n : Nat) : onesFrom rs n ↔ 2 ^ 32 - 1 - rs.toNat < 2 ^ n := by
  rw [← BitVec.toNat_not, ← zerosFrom_iff]
  refine forall_congr' fun k => imp_congr_right fun _ => imp_congr_right fun hk => ?_
  rw [BitVec.getLsbD_not, decide_eq_true hk, Bool.true_and, Bool.not_eq_false']

/-- The bits from 8, 16 or 24 on are alike exactly where the signed word is 0 or -1 above them. -/
theorem sameFrom_iff (rs : Word) {n : Nat} (hn : n = 8 ∨ n = 16 ∨ n = 24) :
    sameFrom rs n ↔ rs.toInt / 2 ^ n = 0 ∨ rs.toInt / 2 ^ n = -1 := by
  have hrange : rs.toNat < 2 ^ 32 := rs.isLt
  rw [sameFrom, zerosFrom_iff, onesFrom_iff, BitVec.toInt_eq_toNat_cond]
  rcases hn with rfl | rfl | rfl <;> split <;> omega

theorem zerosFrom_mono {rs : Word} {m n : Nat} (h : m ≤ n) (hm : zerosFrom rs m) : zerosFrom rs n :=
  fun k hk => hm k (h.trans hk)

theorem sameFrom_mono {rs : Word} {m n : Nat} (h : m ≤ n) (hm : sameFrom rs m) : sameFrom rs n :=
  hm.imp (zerosFrom_mono h) fun hones k hk => hones k (h.trans hk)

end Sys2Proof.Machine

open Sys2Proof.Machine

/-- Settles O21: the tests of the two counts are those of the leading bits, the shortest run first. -/
theorem multiplierCycles : Obligations.MultiplierCycles := by
  intro rs
  show (sameFrom rs 8 → _) ∧ (¬ sameFrom rs 8 → sameFrom rs 16 → _) ∧ (¬ sameFrom rs 16 → sameFrom rs 24 → _) ∧
    (¬ sameFrom rs 24 → _) ∧ (zerosFrom rs 8 → _) ∧ (¬ zerosFrom rs 8 → zerosFrom rs 16 → _) ∧
    (¬ zerosFrom rs 16 → zerosFrom rs 24 → _) ∧ (¬ zerosFrom rs 24 → _)
  have h8 := sameFrom_mono (rs := rs) (m := 8) (n := 16) (by decide)
  have h16 := sameFrom_mono (rs := rs) (m := 16) (n := 24) (by decide)
  have z8 := zerosFrom_mono (rs := rs) (m := 8) (n := 16) (by decide)
  have z16 := zerosFrom_mono (rs := rs) (m := 16) (n := 24) (by decide)
  simp only [sameFrom_iff rs (.inl rfl), sameFrom_iff rs (.inr (.inl rfl)), sameFrom_iff rs (.inr (.inr rfl)),
    zerosFrom_iff] at h8 h16 z8 z16 ⊢
  refine ⟨fun h => if_pos h, fun hn h => ?_, fun hn h => ?_, fun hn => ?_, fun h => if_pos h, fun hn h => ?_,
    fun hn h => ?_, fun hn => ?_⟩
  · rw [mulCyclesSigned, if_neg hn, if_pos h]
  · rw [mulCyclesSigned, if_neg (mt h8 hn), if_neg hn, if_pos h]
  · rw [mulCyclesSigned, if_neg (mt h8 (mt h16 hn)), if_neg (mt h16 hn), if_neg hn]
  · rw [mulCyclesUnsigned, if_neg hn, if_pos h]
  · rw [mulCyclesUnsigned, if_neg (mt z8 hn), if_neg hn, if_pos h]
  · rw [mulCyclesUnsigned, if_neg (mt z8 (mt z16 hn)), if_neg (mt z16 hn), if_neg hn]
end

section
/-! The host's reset (70_reset_and_hazards.md R850). -/

open Sys2Proof

namespace Sys2Proof.Machine

/-- Memory without the RAM: RAM reads as 0, and the images as before. -/
theorem cellRead_filter_notRam (m : Memory) (k : Nat) :
    cellRead (m.filter fun c => !isRamKey c.1) k = if isRamKey k then 0 else cellRead m k := by
  induction m with
  | nil =>
    split
    case isTrue hram =>
      have hrange : 0x02000000 ≤ k ∧ k < 0x08000000 := of_decide_eq_true hram
      exact if_neg (by omega)
    case isFalse => rfl
  | cons c m ih =>
    rw [List.filter_cons]
    by_cases hc : isRamKey c.1 = true
    · have hkeep : ¬ (!isRamKey c.1) = true := by simp [hc]
      rw [if_neg hkeep, ih]
      split
      case isTrue => rfl
      case isFalse hk =>
        have hne : c.1 ≠ k := fun e => hk (e ▸ hc)
        rw [cellRead, if_neg hne]
    · have hkeep : (!isRamKey c.1) = true := by simp [hc]
      rw [if_pos hkeep, cellRead, cellRead, ih]
      split
      case isTrue e => rw [if_neg (e ▸ hc)]
      case isFalse => rfl

theorem resetMemory_default {d : Devices} (h : d.params.memInit = []) :
    resetMemory d = d.mem.filter fun c => !isRamKey c.1 := by
  rw [resetMemory, h]
  rfl

theorem regsReset_getElem : ∀ x : Fin 30, regsReset[x] =
    if x = 13 then 0x03007F00 else if x = 22 then 0x03007FA0 else if x = 24 then 0x03007FE0 else 0 := by decide

theorem psrWord_ofMode_zero : psrWord (Psr.ofMode 0) = 0 := by decide

theorem psrWord_ofMode_sys : psrWord (Psr.ofMode modeSys) = 0x0000001F := by decide

theorem resetMachine_direct {s : State} (h : s.dev.params.bootMode = .directBoot) :
    resetMachine s = .next (directBoot s) := by
  rw [resetMachine, h]

theorem resetMachine_firmware {s : State} (h : s.dev.params.bootMode = .fromFirmware) :
    resetMachine s = match s.dev.params.biosKind with
      | .supplied => .next (firmwareBoot s)
      | .stub => .refused .firmwareBootWithStubBios := by
  rw [resetMachine, h]
  cases s.dev.params.biosKind <;> rfl

/-- POSTFLG after a boot from firmware (R853). -/
theorem resetDevices_postflg_firmware {d : Devices} (h : d.params.bootMode = .fromFirmware) :
    (resetDevices d).postflg = 0 := by
  rw [resetDevices, h]

end Sys2Proof.Machine

open Sys2Proof.Machine

/-- Settles O56: the two boots, by mode and BIOS image. -/
theorem hostResetState : Obligations.HostResetState := by
  intro s
  refine ⟨fun hboot hinit => ?_, fun hboot hbios => ?_, fun hboot hbios => ?_⟩
  · have hspsr := psrWord_ofMode_zero
    refine ⟨_, resetMachine_direct hboot, rfl, psrWord_ofMode_sys, regsReset_getElem,
      ⟨hspsr, hspsr, hspsr, hspsr, hspsr⟩, rfl, rfl, rfl, rfl, rfl, ⟨rfl, rfl, rfl, rfl, rfl⟩, rfl, rfl, fun k => ?_⟩
    show cellRead (resetMemory s.dev) k = _
    rw [resetMemory_default hinit, cellRead_filter_notRam]
    simp only [isRamKey, decide_eq_true_eq]
  · refine ⟨firmwareBoot s, ?_, rfl, rfl, rfl, rfl, rfl, resetDevices_postflg_firmware hboot⟩
    rw [hostReset, resetMachine_firmware hboot, hbios]
  · rw [hostReset, resetMachine_firmware hboot, hbios]
end


section
/-! What User mode cannot do: the mode, the interrupt masks and the SPSRs stay (60_exceptions.md R630, R631). -/

open Sys2Proof

namespace Sys2Proof.Machine

/-- The mode, the interrupt masks and the SPSRs are alike. -/
def sameControl (s t : State) : Prop :=
  t.cpsr.m = s.cpsr.m ∧ t.cpsr.i = s.cpsr.i ∧ t.cpsr.f = s.cpsr.f ∧ sameSpsrs s t

/-- An outcome whose next state, if it has one, has mode, interrupt masks and SPSRs of a state. -/
def KeepsControl (s : State) (o : Result) : Prop := ∀ t, o = .next t → sameControl s t

variable {s : State}

/-- Only an effect on the whole status word touches the mode and the masks. -/
theorem StatusEffect.allows_control {e : StatusEffect} {p q : Psr} (h : e.allows p q) (he : e ≠ .any) :
    q.m = p.m ∧ q.i = p.i ∧ q.f = p.f := by
  cases e with
  | none =>
    cases h
    exact ⟨rfl, rfl, rfl⟩
  | flags =>
    obtain ⟨hi, hf, -, hm⟩ := h
    exact ⟨hm, hi, hf⟩
  | thumbBit =>
    have hq : { q with t := p.t } = p := h
    rw [← hq]
    exact ⟨rfl, rfl, rfl⟩
  | any => exact absurd rfl he

/-! ### What the footprints give -/

theorem sameControl_of_covers {f : Footprint} {t : State} (h : f.Covers s t) (hp : f.psr ≠ .any) (hs : f.spsr = false) :
    sameControl s t := by
  obtain ⟨hm, hi, hf⟩ := StatusEffect.allows_control h.psr hp
  exact ⟨hm, hi, hf, h.spsrs hs⟩

theorem keepsControl_of_bounds {f : Footprint} {o : Result} (h : f.Bounds s o) (hp : f.psr ≠ .any)
    (hs : f.spsr = false) : KeepsControl s o :=
  fun t ht => sameControl_of_covers (h t ht) hp hs

theorem keepsControl_goes (pc : Word) (n : Nat) : KeepsControl s (.next (s.goes pc n)) :=
  fun _ ht => Host.Outcome.next.inj ht ▸ ⟨rfl, rfl, rfl, rfl, rfl, rfl, rfl, rfl⟩

theorem keepsControl_whenCond {c : Cond} {g : State → Result} (h : KeepsControl s (g s)) :
    KeepsControl s (whenCond c s g) := by
  intro t ht
  obtain ⟨-, rfl⟩ | ⟨-, hg⟩ := whenCond_eq_next ht
  · exact keepsControl_goes _ _ _ rfl
  · exact h t hg

theorem mulEffect_ne_any (sets : Bool) : mulEffect sets ≠ .any := by cases sets <;> nofun

theorem dpEffect_ne_any {sets : Bool} {rd : Reg} (h : ¬ (sets = true ∧ rd = 15)) : dpEffect sets rd ≠ .any := by
  unfold dpEffect
  split
  · nofun
  · split
    · next hsets hrd => exact absurd ⟨by simpa using hsets, hrd⟩ h
    · nofun

/-- An undefined encoding under the Nop policy is a skip. -/
theorem keepsControl_undefinedInstr (h : s.dev.params.undefPolicy = .nop) : KeepsControl s s.undefinedInstr := by
  rw [State.undefinedInstr, h]
  exact keepsControl_goes _ _

/-- In User mode MSR writes the condition flags of the CPSR alone (40_arm_dataproc.md R320). -/
theorem msrCpsr_user {mask : BitVec 4} {p v : Psr} (hu : p.m = modeUsr) :
    (msrCpsr mask p v).m = p.m ∧ (msrCpsr mask p v).i = p.i ∧ (msrCpsr mask p v).f = p.f := by
  have hflags : msrCpsr mask p v = mergeFlags (fieldF mask) p v := by simp [msrCpsr, hu]
  rw [hflags, mergeFlags]
  split <;> exact ⟨rfl, rfl, rfl⟩

/-! ### In User mode, which has no SPSR (10_state.md R40, R43) -/

section
variable (hu : s.cpsr.m = modeUsr)
include hu

theorem psrRestore_user : s.psrRestore = .next s :=
  psrRestore_none (by rw [hu]; rfl)

/-- A data-processing write of r15 with S = 1 restores no status word. -/
theorem keepsControl_dpWrite {op : AluOp} {sets : Bool} {rd : Reg} {a : Word} {b : ShiftOut} :
    KeepsControl s (dpWrite op sets rd a b s) := by
  by_cases h : sets = true ∧ rd = 15
  · obtain ⟨rfl, rfl⟩ := h
    rw [dpWrite_pc, if_pos rfl, psrRestore_user hu]
    exact keepsControl_goes _ _
  · exact keepsControl_of_bounds bounds_dpWrite (dpEffect_ne_any h) rfl

theorem keepsControl_dpImm {op : AluOp} {c : Cond} {sets : Bool} {rn rd : Reg} {rot : BitVec 4} {imm : BitVec 8} :
    KeepsControl s (dpImm op c sets rn rd rot imm s) :=
  keepsControl_whenCond (keepsControl_dpWrite (s := s.charge _) hu)

theorem keepsControl_dpShift {op : AluOp} {c : Cond} {sets : Bool} {rn rd rm : Reg} {amt : BitVec 5} {sh : ShiftType} :
    KeepsControl s (dpShift op c sets rn rd amt sh rm s) :=
  keepsControl_whenCond (keepsControl_dpWrite (s := s.charge _) hu)

theorem keepsControl_dpReg {op : AluOp} {c : Cond} {sets : Bool} {rn rd rs rm : Reg} {sh : ShiftType} :
    KeepsControl s (dpReg op c sets rn rd rs sh rm s) :=
  keepsControl_whenCond (keepsControl_dpWrite (s := (s.charge _).charge _) hu)

/-- MSR writes no SPSR in User mode. -/
theorem keepsControl_msrWrite {r : Bool} {mask : BitVec 4} {v : Word} : KeepsControl s (msrWrite r mask v s) := by
  have hspsr : s.spsrOf s.cpsr.m = none := by rw [hu]; rfl
  intro t ht
  unfold msrWrite at ht
  cases r with
  | true =>
    simp only [hspsr, if_true] at ht
    exact keepsControl_goes _ _ t ht
  | false =>
    simp only [Bool.false_eq_true, if_false] at ht
    split at ht
    · obtain ⟨hm, hi, hf⟩ := msrCpsr_user (mask := mask) (v := psrOfWord v) hu
      cases ht
      exact ⟨hm, hi, hf, rfl, rfl, rfl, rfl, rfl⟩
    · cases ht

/-- A block load restores no status word. -/
theorem blockLoad_user {wback user restore inList : Bool} {rn : Reg} {b : BlockOut} :
    blockLoad wback user restore rn inList b s = blockLoad wback user false rn inList b s := by
  unfold blockLoad
  dsimp only
  obtain ⟨n, hn⟩ := chargeBlock_eq_charge .nonseq b.regs b.first (s.chargeCode .seq)
  generalize hloaded : setLoaded _ _ (writeBase _ _) = u
  have huser : u.cpsr.m = modeUsr := by
    obtain ⟨r, hr⟩ := setLoaded_frame (if user then modeUsr else s.cpsr.m) (blockValues s b.regs b.first)
      (writeBase (loadBase wback rn inList b.wback)
        ((chargeBlock .nonseq b.regs b.first (s.chargeCode .seq)).charge 1))
    rw [← hloaded, hr]
    show (writeBase _ _).cpsr.m = modeUsr
    rw [writeBase_cpsr, hn]
    exact hu
  rw [psrRestore_user huser]
  cases restore <;> rfl

theorem keepsControl_blockLoad {wback user restore inList : Bool} {rn : Reg} {b : BlockOut} :
    KeepsControl s (blockLoad wback user restore rn inList b s) := by
  rw [blockLoad_user hu]
  exact keepsControl_of_bounds (f := { regs := List.finRange 30, psr := .none })
    (bounds_blockLoad (fun _ => List.mem_finRange _) (fun _ _ _ => List.mem_finRange _) nofun) nofun rfl

/-- In User mode an instruction that is neither a software interrupt nor trapped keeps mode, masks and SPSRs. -/
theorem keepsControl_exec {i : Instr} (hswi : isSwi i = false)
    (hundef : isUndefined i = false ∨ s.dev.params.undefPolicy = .nop) : KeepsControl s (exec i s) := by
  have hframe (hp : statusEffect i ≠ .any) (hs : mayWriteSpsr i = false) : KeepsControl s (exec i s) :=
    keepsControl_of_bounds (exec_bounds i s hswi) hp hs
  have hnop (hi : isUndefined i = true) : KeepsControl s s.undefinedInstr :=
    keepsControl_undefinedInstr (hundef.resolve_left (by simp [hi]))
  unfold exec at hframe ⊢
  cases i with
  | armAndImm | armEorImm | armSubImm | armRsbImm | armAddImm | armAdcImm | armSbcImm | armRscImm | armOrrImm
  | armMovImm | armBicImm | armMvnImm => exact keepsControl_dpImm hu
  | armAndShift | armEorShift | armSubShift | armRsbShift | armAddShift | armAdcShift | armSbcShift | armRscShift
  | armOrrShift | armMovShift | armBicShift | armMvnShift => exact keepsControl_dpShift hu
  | armAndReg | armEorReg | armSubReg | armRsbReg | armAddReg | armAdcReg | armSbcReg | armRscReg | armOrrReg
  | armMovReg | armBicReg | armMvnReg => exact keepsControl_dpReg hu
  | armMul | armMla | armUmull | armUmlal | armSmull | armSmlal => exact hframe (mulEffect_ne_any _) rfl
  | armMsrReg | armMsrImm => exact keepsControl_whenCond (keepsControl_msrWrite hu)
  | armLdm => exact keepsControl_whenCond (keepsControl_blockLoad hu)
  | armUndefSignedStore | armUndefMulSpace | armUndefControl | armUndefTestImm | armUndefMedia | armStc | armLdc
  | armCdp | armMcr | armMrc => exact keepsControl_whenCond (hnop rfl)
  | thumbUndef1011 | thumbUndefCond | thumbUndefBlx => exact hnop rfl
  | armSwi | thumbSwi => cases hswi
  | _ => exact hframe nofun rfl

end

end Sys2Proof.Machine

open Sys2Proof.Machine

/-- Settles O41: the first clause is the footprint's effect on the status word, the second the case of User mode. -/
theorem modeChangesOnlyAsListed : Obligations.ModeChangesOnlyAsListed := by
  intro i s t ht
  refine ⟨fun hmode => ?_, fun huser hswi hundef => ?_⟩
  · obtain ⟨-, hallows, -⟩ := cpuFrame i s t ht
    by_contra hlisted
    have heffect : statusEffect i ≠ .any := fun he => hlisted (beq_iff_eq.mpr he)
    obtain ⟨hm, -⟩ := StatusEffect.allows_control hallows heffect
    exact hmode hm
  · obtain ⟨hm, hi, hf, hspsrs⟩ := keepsControl_exec huser hswi hundef t ht
    exact ⟨hm.trans huser, hi, hf, hspsrs⟩
end
